-- ==== Sys2Proof/Word.lean ====
section
/-! DEFINITION. The word types of the SSD decoder: sample positions, bytes, 64-bit record words
(spec/00_scope.md R8, R9; spec/20_memory.md R60, R80). -/

namespace Sys2Proof

/-- A sample position: an unsigned 64-bit count of samples since capture start
(00_scope.md R8 `W_POS`, R14; 20_memory.md R60 (a)). Comparisons are unsigned; differences are
taken in `Nat` (R66), never modulo 2^64. -/
abbrev Pos := BitVec 64

/-- A 64-bit word of a record or a configuration register (R9 `u64`). -/
abbrev Word64 := BitVec 64

/-- A byte of the line or of a serialised record (R9 `u8`). -/
abbrev Byte := BitVec 8

end Sys2Proof
end

