-- ==== Sys2Proof/Machine/Records.lean ====
section
/-! DEFINITION. The enumerations and the output records of the SSD decoder with their numeric codes
(spec/30_encoding.md R90, R93, R94, R96 to R101, R105). -/

namespace Sys2Proof.Machine

/-! The codes of the state register `st` (30_encoding.md R90); 0xA to 0xE are reserved (R91). -/

abbrev St.hunt : BitVec 4 := 0x0
abbrev St.preamble : BitVec 4 := 0x1
abbrev St.packetStart : BitVec 4 := 0x2
abbrev St.commandByte : BitVec 4 := 0x3
abbrev St.dataStart : BitVec 4 := 0x4
abbrev St.dataByte : BitVec 4 := 0x5
abbrev St.checksumStart : BitVec 4 := 0x6
abbrev St.checksumByte : BitVec 4 := 0x7
abbrev St.packetEnd : BitVec 4 := 0x8
abbrev St.gapSkip : BitVec 4 := 0x9
abbrev St.halted : BitVec 4 := 0xF

/-- What one inter-edge interval is (30_encoding.md R93; 00_scope.md R14). -/
inductive HalfBitSymbol where
  | zero | one | gap | error
  deriving DecidableEq, Repr

/-- The 2-bit code of a half-bit symbol (30_encoding.md R93). -/
def HalfBitSymbol.code : HalfBitSymbol → BitVec 2
  | .zero => 0b00
  | .one => 0b01
  | .gap => 0b10
  | .error => 0b11

/-- What two half-bits make (30_encoding.md R94). -/
inductive LogicalBit where
  | zero | one | bitError | framingError
  deriving DecidableEq, Repr

/-- The 2-bit code of a logical bit (30_encoding.md R94). -/
def LogicalBit.code : LogicalBit → BitVec 2
  | .zero => 0b00
  | .one => 0b01
  | .bitError => 0b10
  | .framingError => 0b11

/-- The packet mode (10_state.md R29). Code 3 is reserved and never written (R96), so the type has
no member for it. -/
inductive Mode where
  | unknown | program | race
  deriving DecidableEq, Repr

/-- The 2-bit code of a mode (30_encoding.md R96). -/
def Mode.code : Mode → BitVec 2
  | .unknown => 0
  | .program => 1
  | .race => 2

/-- Why the block halted (10_state.md R33). -/
inductive HaltCause where
  | none | cancelled | exhausted | edgeFault
  deriving DecidableEq, Repr

/-- The 2-bit code of a halt cause (30_encoding.md R105). -/
def HaltCause.code : HaltCause → BitVec 2
  | .none => 0
  | .cancelled => 1
  | .exhausted => 2
  | .edgeFault => 3

/-- Which checksum the accumulator computes (10_state.md R48). -/
inductive CksumFormula where
  | xorData | ffCmdData
  deriving DecidableEq, Repr

/-- The 1-bit code of a checksum formula (10_state.md R48). -/
def CksumFormula.code : CksumFormula → BitVec 1
  | .xorData => 0
  | .ffCmdData => 1

/-- The type of an output frame (30_encoding.md R97). Codes 8 to 15 are reserved and never
emitted. -/
inductive FrameType where
  | preamble | psbit | command | dsbit | carData | checksum | pebit | error
  deriving DecidableEq, Repr

/-- The 4-bit code of a frame type (30_encoding.md R97). -/
def FrameType.code : FrameType → BitVec 4
  | .preamble => 0
  | .psbit => 1
  | .command => 2
  | .dsbit => 3
  | .carData => 4
  | .checksum => 5
  | .pebit => 6
  | .error => 7

/-- The cause of a decode error (30_encoding.md R100; 60_exceptions.md R241). -/
inductive ErrorKind where
  | halfBitError | unexpectedGap | unexpectedZero | bitError | framingError | unexpectedOne
  deriving DecidableEq, Repr

/-- The code of an error kind, as `data1` of an ERROR frame carries it (30_encoding.md R100). -/
def ErrorKind.code : ErrorKind → Word64
  | .halfBitError => 1
  | .unexpectedGap => 2
  | .unexpectedZero => 3
  | .bitError => 4
  | .framingError => 5
  | .unexpectedOne => 6

/-- The kind of a positional marker (30_encoding.md R101). -/
inductive MarkerKind where
  | start | stop | errorPoint | errorSpan
  deriving DecidableEq, Repr

/-- The 2-bit code of a marker kind (30_encoding.md R101). -/
def MarkerKind.code : MarkerKind → BitVec 2
  | .start => 0
  | .stop => 1
  | .errorPoint => 2
  | .errorSpan => 3

/-- An output frame record (00_scope.md R14 *Frame*; widths 20_memory.md R80). -/
structure Frame where
  startSample : Pos
  endSample : Pos
  frameType : FrameType
  flags : BitVec 4
  data1 : Word64
  data2 : Word64
  deriving DecidableEq, Repr

/-- An output marker record (20_memory.md R80). -/
structure Marker where
  position : Pos
  kind : MarkerKind
  deriving DecidableEq, Repr

/-- The answer of the Edge Source to a request for the edges a step needs
(20_memory.md R62 to R65; 42_framer.md R160): delivered and in order, known not to exist, not yet
delivered, or delivered out of order. -/
inductive Supply (α : Type) where
  | ready (a : α)
  | exhausted
  | waiting
  | edgeFault
  deriving DecidableEq, Repr

end Sys2Proof.Machine
end

