-- ==== Sys2Proof/Config.lean ====
section
/-! DEFINITION. What an implementation of the SSD decoder fixes and the spec leaves free: opaque
constants without a body, so that nothing in Lean can prove a value of them. The configuration
REGISTERS are state (Machine/State.lean), not constants. -/

namespace Sys2Proof

open Sys2Proof.Machine

/-- DESIGN CHOICE, safe (log entry 4). The free choice of 60_exceptions.md R248 and
93_implementation_defined.md U16: whether the block takes a cancellation at an allowed boundary
where it is not forced to. The argument is the counter `State.choice`. -/
opaque Config.cancelNow : Nat → Bool

/-- DESIGN CHOICE, safe (log entry 7). `MARKER_POLICY` as a parameter (20_memory.md R72,
93_implementation_defined.md U15): the policy numbered `n`, uninterpreted. The spec's default policy
is `Machine.defaultMarkers` and is not one of these. -/
opaque Config.markerPolicy : Nat → Frame → List Marker

end Sys2Proof
end

