-- ==== Sys2Proof/Machine/State.lean ====
section
/-! DEFINITION. The whole state of the SSD decoder as plain data (spec/10_state.md R20 to R55), its
reset value (R54) and the reasons a step can stop. -/

namespace Sys2Proof.Machine

/-- The PacketContext: the per-packet registers together with the byte-assembly registers
(10_state.md R34). -/
structure PacketContext where
  /-- The command byte of the current packet (R28). -/
  cmd : BitVec 8
  /-- The packet mode (R29). -/
  mode : Mode
  /-- The 0-based index of the next data byte (R30). -/
  carIndex : BitVec 3
  /-- The checksum accumulator (R31). -/
  cks : BitVec 8
  /-- The car-data buffer (R32). -/
  car : Vector (BitVec 8) 6
  /-- The byte shift register (R26). -/
  shreg : BitVec 8
  /-- The number of bits of the current byte already shifted in (R27). -/
  bidx : BitVec 4
  deriving DecidableEq, Repr

/-- The PacketContext at reset and on every entry to HUNT (10_state.md R34, R54; 42_framer.md
R161). -/
def PacketContext.clear : PacketContext :=
  { cmd := 0, mode := .unknown, carIndex := 0, cks := 0, car := #v[0, 0, 0, 0, 0, 0],
    shreg := 0, bidx := 0 }

/-- The twelve configuration registers (10_state.md R40 to R52), in the order of their numbers
(30_encoding.md R104). -/
structure CfgRegs where
  min1 : Word64
  max1 : Word64
  min0 : Word64
  max0 : Word64
  minGap : Word64
  maxGap : Word64
  maxBit : Word64
  preambleBits : BitVec 5
  cksumFormula : CksumFormula
  programBytes : BitVec 3
  unknownBytes : BitVec 3
  start : Word64
  deriving DecidableEq, Repr

/-- The configuration at reset. `preambleBits`, `unknownBytes` and `start` are the spec's reset values
(10_state.md R54). The other nine have none: DESIGN CHOICE, unsafe (log entry 6), the spec's own
example configuration EX (95_test_vectors.md section 0). No statement rests on them. -/
def CfgRegs.reset : CfgRegs :=
  { min1 := 57, max1 := 63, min0 := 106, max0 := 125, minGap := 300, maxGap := 1000000,
    maxBit := 260, preambleBits := 14, cksumFormula := .xorData, programBytes := 6,
    unknownBytes := 6, start := 0 }

/-- The output history, the Frame Sink as the block sees it (10_state.md R37; 20_memory.md R70). -/
structure Output where
  frames : List Frame
  markers : List Marker
  commits : Nat
  deriving DecidableEq, Repr

/-- The output history at reset (10_state.md R54). -/
def Output.empty : Output := { frames := [], markers := [], commits := 0 }

/-- The Edge Source (20_memory.md R61, R64): the edges delivered so far, oldest first, and whether the
capture has ended after them. DEDUCED, safe (log entry 2). -/
structure EdgeSource where
  edges : List Pos
  ended : Bool
  deriving DecidableEq, Repr

/-- The Edge Source before the host delivers anything. -/
def EdgeSource.empty : EdgeSource := { edges := [], ended := false }

/-- The state of the block (10_state.md R20), the inputs the host drives, and the model's own two
fields `cancelDue` and `choice`. -/
structure State where
  /-- The state register (R21). -/
  st : BitVec 4
  /-- The cursor (R22). -/
  cur : Pos
  /-- The index of the next unconsumed edge (R38). -/
  k : Nat
  /-- The preamble counter (R23). -/
  pcnt : BitVec 32
  /-- Where the counted preamble began (R24). -/
  pstart : Pos
  /-- Where the unit being assembled began (R25). -/
  ustart : Pos
  /-- The PacketContext (R26 to R32, R34). -/
  ctx : PacketContext
  /-- Why the block halted (R33). -/
  hcause : HaltCause
  /-- The configuration registers (R40 to R52). -/
  cfg : CfgRegs
  /-- The output history (R37). -/
  out : Output
  /-- The Edge Source (20_memory.md R61). -/
  src : EdgeSource
  /-- The cancel input, a level (60_exceptions.md R248). -/
  cancel : Bool
  /-- The MODEL's own: a step taken while cancel was raised emitted a frame or changed `st`, so
  60_exceptions.md R248 forces the halt. DEDUCED, safe (log entry 5). -/
  cancelDue : Bool
  /-- The host holds the block in reset (70_reset_and_hazards.md R280). -/
  held : Bool
  /-- The MODEL's own: the number of the next free choice of 60_exceptions.md R248. DESIGN CHOICE,
  safe (log entry 4). -/
  choice : Nat
  /-- `MARKER_POLICY` (20_memory.md R72): none is the spec's default, some n the uninterpreted policy
  `Config.markerPolicy n`. DESIGN CHOICE, safe (log entry 7). -/
  policy : Option Nat
  deriving DecidableEq, Repr

/-- The machine right after reset: every row of 10_state.md R54, no edge delivered, cancel and the
reset line lowered. -/
def State.reset : State :=
  { st := St.hunt, cur := CfgRegs.reset.start, k := 0, pcnt := 0, pstart := 0, ustart := 0,
    ctx := .clear, hcause := .none, cfg := .reset, out := .empty, src := .empty,
    cancel := false, cancelDue := false, held := false, choice := 0, policy := none }

/-- The reasons a step faults. -/
inductive Fault where
  /-- Raised by `step`: `st` holds a reserved code 0xA to 0xE (30_encoding.md R91). Safe. -/
  | reservedState
  /-- Raised by `step`: the key matches no row, HUNT.GAP (30_encoding.md R95,
  93_implementation_defined.md U5). Safe. -/
  | unreachableKey
  /-- Raised by the two meanings of DATA_BYTE that complete a byte: `carIndex` is 6 or 7, so
  `car[carIndex]` does not exist (42_framer.md R169 says it is always in range). DESIGN CHOICE, safe
  (log entry 11). -/
  | carBufferOverrun
  /-- Raised by `step` of a block that halted with EDGE_FAULT: the host broke the contract of the Edge
  Source, and a run that reaches that halt refutes any claim (60_exceptions.md R251,
  93_implementation_defined.md U8). DEDUCED, safe (log entry 3). -/
  | edgeFault
  deriving DecidableEq, Repr

/-- The reasons a step or an action of the host is refused. -/
inductive Refusal where
  /-- Raised by an arm of `exec` whose instruction has no meaning yet. Safe. -/
  | notModelled (mnemonic : String)
  /-- Raised by `step`: the configuration fails 10_state.md R50, so the block does not start
  (60_exceptions.md R252). Safe. -/
  | invalidConfiguration
  /-- Raised by the host action that writes a configuration register while the block runs
  (70_reset_and_hazards.md R290, 93_implementation_defined.md U6). Safe. -/
  | configWriteWhileRunning
  /-- Raised by the host actions that deliver an edge past 2^64 - 1, or load a stimulus that starts or
  has an edge there (20_memory.md R66, 93_implementation_defined.md U7). Safe. -/
  | positionOverflow
  /-- Raised by the host action that delivers an edge after the capture has ended (20_memory.md R61:
  the capture ends after the last edge). Safe. -/
  | edgeAfterEnd
  deriving DecidableEq, Repr

/-- What a step or a meaning answers. -/
abbrev StepResult := Host.Outcome State Fault Refusal

end Sys2Proof.Machine
end

