-- ==== Sys2Proof/Machine/Operands.lean ====
section
/-! DEFINITION. How a state's operation obtains its input: the Edge Source port, the half-bit
classifier with Peek and Consume, the bit assembler and byte assembly (spec/20_memory.md R62 to R66;
spec/40_linecode.md; spec/41_bit_assembler.md; spec/42_framer.md R160, R169). -/

namespace Sys2Proof.Machine

/-- The Edge Source's answer for edge `j`, the outcome of EdgePeek when `j = k` (20_memory.md R62,
R64, R65). -/
def edgeAt (s : State) (j : Nat) : Supply Pos :=
  match s.src.edges[j]? with
  | some e => .ready e
  | none => if s.src.ended then .exhausted else .waiting

/-- The one edge a one-edge step needs, checked as 42_framer.md R160 checks it. -/
def supplyOne (s : State) : Supply Pos :=
  match edgeAt s s.k with
  | .ready e => if s.cur < e then .ready e else .edgeFault
  | other => other

/-- The two edges a two-edge step needs, checked as 42_framer.md R160 checks them: both known first,
then both in order. -/
def supplyTwo (s : State) : Supply (Pos × Pos) :=
  match edgeAt s s.k, edgeAt s (s.k + 1) with
  | .ready e, .ready f => if s.cur < e ∧ e < f then .ready (e, f) else .edgeFault
  | _, _ => if s.src.ended then .exhausted else .waiting

/-- EdgePop of the delivered edge `e` (20_memory.md R63). -/
def edgePop (e : Pos) (s : State) : State := { s with cur := e, k := s.k + 1 }

/-- The length of the interval from `a` to `b`, exact in `Nat` (20_memory.md R66). -/
def intervalLength (a b : Pos) : Nat := b.toNat - a.toNat

/-- Classify (40_linecode.md R120): the tests in order, bounds inclusive, GAP under Peek only. -/
def classify (c : CfgRegs) (len : Nat) (peek : Bool) : HalfBitSymbol :=
  if c.min1.toNat ≤ len ∧ len ≤ c.max1.toNat then .one
  else if c.min0.toNat ≤ len ∧ len ≤ c.max0.toNat then .zero
  else if peek = true ∧ c.minGap.toNat ≤ len ∧ len ≤ c.maxGap.toNat then .gap
  else .error

/-- Peek at the next edge `e`: the symbol of the interval from the cursor, nothing written
(40_linecode.md R122). -/
def peekSymbol (e : Pos) (s : State) : HalfBitSymbol :=
  classify s.cfg (intervalLength s.cur e) true

/-- Consume the next edge `e`: the symbol of the interval traversed and the state after EdgePop
(40_linecode.md R123). -/
def consume (e : Pos) (s : State) : HalfBitSymbol × State :=
  (classify s.cfg (intervalLength s.cur e) false, edgePop e s)

/-- The result of the bit assembler for two half-bits and their combined span
(41_bit_assembler.md R140, precedence R141). -/
def judgeBit (h1 h2 : HalfBitSymbol) (span maxBit : Nat) : LogicalBit :=
  if h1 = .error ∨ h2 = .error ∨ maxBit < span then .bitError
  else if h1 ≠ h2 then .framingError
  else if h1 = .one then .one else .zero

/-- AssembleBit over the next two edges: both half-bits are always consumed
(41_bit_assembler.md R140). -/
def assembleBit (e f : Pos) (s : State) : LogicalBit × State :=
  let h1 := consume e s
  let h2 := consume f h1.2
  (judgeBit h1.1 h2.1 (intervalLength s.cur f) s.cfg.maxBit.toNat, h2.2)

/-- ShiftIn of one bit value, MSB first (41_bit_assembler.md R142). -/
def shiftIn (b : BitVec 1) (s : State) : State :=
  { s with
    ctx.shreg := (s.ctx.shreg <<< 1) ||| b.setWidth 8
    ctx.bidx := s.ctx.bidx + 1 }

/-- Whether the byte is complete after a ShiftIn (41_bit_assembler.md R143). -/
def byteDone (s : State) : Bool := s.ctx.bidx == 8

/-- `shreg <- 0; bidx <- 0`, on byte completion and at each start bit (41_bit_assembler.md R143). -/
def clearByte (s : State) : State := { s with ctx.shreg := 0, ctx.bidx := 0 }

/-- ModeOf (42_framer.md R166). -/
def modeOf (v : BitVec 8) : Mode :=
  if v = 0x02 then .race else if v = 0x01 then .program else .unknown

/-- ExpectedBytes (42_framer.md R169). -/
def expectedBytes (c : CfgRegs) : Mode → Nat
  | .race => 6
  | .program => c.programBytes.toNat
  | .unknown => c.unknownBytes.toNat

/-- How many edges a step in state `st` needs (42_framer.md R160). -/
def needsTwoEdges (st : BitVec 4) : Bool :=
  st == St.packetStart || st == St.commandByte || st == St.dataStart || st == St.dataByte ||
    st == St.checksumStart || st == St.checksumByte

end Sys2Proof.Machine
end

