-- ==== Sys2Proof/Machine/Flags.lean ====
section
/-! DEFINITION. The frame flags (spec/30_encoding.md R98, R100) and the checksum accumulator
(spec/43_checksum.md R220 to R224). -/

namespace Sys2Proof.Machine

/-- Flag bit 0, BIT_ERROR (30_encoding.md R98). -/
abbrev flagBitError : BitVec 4 := 0b0001
/-- Flag bit 1, FRAMING_ERROR (30_encoding.md R98). -/
abbrev flagFramingError : BitVec 4 := 0b0010
/-- Flag bit 2, PACKET_ERROR (30_encoding.md R98). -/
abbrev flagPacketError : BitVec 4 := 0b0100
/-- Flag bit 3, CHECKSUM_ERROR (30_encoding.md R98). -/
abbrev flagChecksumError : BitVec 4 := 0b1000

/-- The flag of an ERROR frame of each kind (30_encoding.md R100; 60_exceptions.md R241). -/
def ErrorKind.flag : ErrorKind → BitVec 4
  | .halfBitError => flagBitError
  | .unexpectedGap => flagPacketError
  | .unexpectedZero => flagPacketError
  | .bitError => flagBitError
  | .framingError => flagFramingError
  | .unexpectedOne => flagPacketError

/-- The initial value of the accumulator (43_checksum.md R221). -/
def cksInitial : CksumFormula → BitVec 8
  | .xorData => 0x00
  | .ffCmdData => 0xFF

/-- The accumulator after the command byte `v` (43_checksum.md R222). -/
def foldCommand (f : CksumFormula) (cks v : BitVec 8) : BitVec 8 :=
  match f with
  | .xorData => cks
  | .ffCmdData => cks ^^^ v

/-- The accumulator after the data byte `v` (43_checksum.md R223). -/
def foldData (cks v : BitVec 8) : BitVec 8 := cks ^^^ v

/-- CksInit (43_checksum.md R221). -/
def cksInit (s : State) : State := { s with ctx.cks := cksInitial s.cfg.cksumFormula }

/-- CksFoldCommand (43_checksum.md R222). -/
def cksFoldCommand (v : BitVec 8) (s : State) : State :=
  { s with ctx.cks := foldCommand s.cfg.cksumFormula s.ctx.cks v }

/-- CksFoldData (43_checksum.md R223). -/
def cksFoldData (v : BitVec 8) (s : State) : State :=
  { s with ctx.cks := foldData s.ctx.cks v }

/-- CksCheck: the flags of the CHECKSUM frame for the received byte `r` (43_checksum.md R224). -/
def cksCheck (r cks : BitVec 8) : BitVec 4 := if r = cks then 0 else flagChecksumError

end Sys2Proof.Machine
end

