-- ==== Sys2Proof/Machine/Ops.lean ====
section
/-! DEFINITION. The shared operations of the packet state machine: Emit, ToHunt, the error entry, Halt
and the steps' common shape (spec/20_memory.md R70, R72; spec/42_framer.md R160, R161, R175;
spec/60_exceptions.md R242, R243, R250). -/

namespace Sys2Proof.Machine

/-- The default `MARKER_POLICY` (20_memory.md R72). -/
def defaultMarkers (f : Frame) : List Marker :=
  match f.frameType with
  | .error => [⟨f.startSample, .start⟩, ⟨f.endSample, .stop⟩]
  | _ => []

/-- The markers of a frame under a policy (20_memory.md R72; log entry 7). -/
def markersOf (policy : Option Nat) (f : Frame) : List Marker :=
  match policy with
  | none => defaultMarkers f
  | some n => Config.markerPolicy n f

/-- Emit: append the frame, then its markers in order, then commit (20_memory.md R70, R76). -/
def emit (f : Frame) (s : State) : State :=
  { s with
    out.frames := s.out.frames ++ [f]
    out.markers := s.out.markers ++ markersOf s.policy f
    out.commits := s.out.commits + 1 }

/-- `st <- S` (00_scope.md R10). -/
def goto (st : BitVec 4) (s : State) : State := { s with st := st }

/-- `ToHunt(p)`: the return to the initial state (42_framer.md R161; 10_state.md R34). -/
def toHunt (p : BitVec 32) (s : State) : State :=
  { s with st := St.hunt, pcnt := p, ctx := .clear }

/-- The ERROR frame of 60_exceptions.md R242 for an error of kind `kind` detected in state `st`. -/
def errorFrame (st : BitVec 4) (kind : ErrorKind) (start stop : Pos) : Frame :=
  { startSample := start, endSample := stop, frameType := .error, flags := kind.flag,
    data1 := kind.code, data2 := st.setWidth 64 }

/-- `raise DecodeError`, the one error entry of the block: emit the ERROR frame with the state before
the change, then return to HUNT (60_exceptions.md R243). There is no handler and no return from it
(R245). -/
def raiseError (kind : ErrorKind) (start stop : Pos) (s : State) : State :=
  toHunt 0 (emit (errorFrame s.st kind start stop) s)

/-- `BitFail`: the unit that began at `ustart` failed with the bit just consumed
(42_framer.md R175). -/
def bitFail (kind : ErrorKind) (s : State) : State := raiseError kind s.ustart s.cur s

/-- `Halt(c)` (60_exceptions.md R250): nothing but `st` and `hcause` changes. -/
def halt (c : HaltCause) (s : State) : State := { s with st := St.halted, hcause := c }

/-- The common beginning of a running step (42_framer.md R160): halt when the capture is exhausted,
stay where it is while an edge is not delivered, halt on an edge out of order, else run. -/
def whenReady {α : Type} (need : Supply α) (s : State) (run : α → StepResult) : StepResult :=
  match need with
  | .ready a => run a
  | .exhausted => .next (halt .exhausted s)
  | .waiting => .next s
  | .edgeFault => .next (halt .edgeFault s)

/-- The preamble counter after one more ONE, saturating at 2^32 - 1 (10_state.md R23). -/
def countOne (n : BitVec 32) : BitVec 32 := if n = BitVec.allOnes 32 then n else n + 1

/-- `ustart <- cur` at a start bit (10_state.md R25). -/
def markUnit (s : State) : State := { s with ustart := s.cur }

/-- `if bidx = 0 then ustart <- cur` in a byte state (10_state.md R25). -/
def markByte (s : State) : State := if s.ctx.bidx = 0 then markUnit s else s

/-- Consume one bit in a start-bit state and go on with `done`
(42_framer.md R164, R167, R170). -/
def startBitStep (done : State → State) (s : State) : StepResult :=
  whenReady (supplyTwo s) s fun p => .next (done (assembleBit p.1 p.2 (markUnit s)).2)

/-- Consume one bit in a byte state and go on with `done` (42_framer.md R165, R168, R171). -/
def byteBitStep (done : State → StepResult) (s : State) : StepResult :=
  whenReady (supplyTwo s) s fun p => done (assembleBit p.1 p.2 (markByte s)).2

/-- Take a ZERO or ONE bit in a byte state: ShiftIn, and on the eighth bit clear the byte registers
and act on the byte (41_bit_assembler.md R142, R143). -/
def takeBit (b : BitVec 1) (complete : BitVec 8 → State → StepResult) (s : State) : StepResult :=
  let s1 := shiftIn b s
  if byteDone s1 then complete s1.ctx.shreg (clearByte s1) else .next s1

/-- The PSBIT, DSBIT and PEBIT frames carry a span and no payload (30_encoding.md R99). -/
def bareFrame (t : FrameType) (start stop : Pos) : Frame :=
  { startSample := start, endSample := stop, frameType := t, flags := 0, data1 := 0, data2 := 0 }

/-- An outcome with `f` applied to its next state; a fault or a refusal is kept. -/
def mapNext (f : State → State) : StepResult → StepResult
  | .next s => .next (f s)
  | .fault r => .fault r
  | .refused r => .refused r

end Sys2Proof.Machine
end

