-- ==== Sys2Proof/Machine/Bytes.lean ====
section
/-! DEFINITION. The meanings of the three byte states COMMAND_BYTE, DATA_BYTE and CHECKSUM_BYTE
(spec/42_framer.md R165, R168, R171, R175). -/

namespace Sys2Proof.Machine

/-- The COMMAND frame (30_encoding.md R99). -/
def commandFrame (v : BitVec 8) (m : Mode) (s : State) : Frame :=
  { startSample := s.ustart, endSample := s.cur, frameType := .command, flags := 0,
    data1 := v.setWidth 64, data2 := m.code.setWidth 64 }

/-- The CAR_DATA frame, with the 1-based car index (30_encoding.md R99, R107). -/
def carDataFrame (v : BitVec 8) (s : State) : Frame :=
  { startSample := s.ustart, endSample := s.cur, frameType := .carData, flags := 0,
    data1 := v.setWidth 64, data2 := s.ctx.carIndex.setWidth 64 + 1 }

/-- The CHECKSUM frame: the received byte, the computed one, and the flag of the comparison
(30_encoding.md R99; 43_checksum.md R224). -/
def checksumFrame (r : BitVec 8) (s : State) : Frame :=
  { startSample := s.ustart, endSample := s.cur, frameType := .checksum,
    flags := cksCheck r s.ctx.cks, data1 := r.setWidth 64, data2 := s.ctx.cks.setWidth 64 }

/-- A completed command byte `v` (42_framer.md R165). -/
def completeCommand (v : BitVec 8) (s : State) : StepResult :=
  let s1 := { s with ctx.cmd := v, ctx.mode := modeOf v, ctx.carIndex := 0 }
  let s2 := cksFoldCommand v s1
  .next (goto St.dataStart (emit (commandFrame v (modeOf v) s2) s2))

/-- `car[carIndex] <- v` (10_state.md R32). -/
def storeCar (v : BitVec 8) (s : State) : State :=
  { s with ctx.car := s.ctx.car.setIfInBounds s.ctx.carIndex.toNat v }

/-- `carIndex <- carIndex + 1`, then the choice between the next data byte and the checksum
(42_framer.md R168, R169). -/
def nextCar (s : State) : State :=
  { s with
    ctx.carIndex := s.ctx.carIndex + 1
    st := if (s.ctx.carIndex + 1).toNat = expectedBytes s.cfg s.ctx.mode then St.checksumStart
          else St.dataStart }

/-- A completed data byte `v` (42_framer.md R168). Where `car[carIndex]` does not exist, which R169
rules out, it faults (log entry 11). -/
def completeData (v : BitVec 8) (s : State) : StepResult :=
  if s.ctx.carIndex.toNat < 6 then
    let s1 := cksFoldData v (storeCar v s)
    .next (nextCar (emit (carDataFrame v s1) s1))
  else .fault .carBufferOverrun

/-- A completed checksum byte `r` (42_framer.md R171). -/
def completeChecksum (r : BitVec 8) (s : State) : StepResult :=
  .next (goto St.packetEnd (emit (checksumFrame r s) s))

/-- COMMAND_BYTE.ZERO (42_framer.md R165). -/
def execCommandByteZero (s : State) : StepResult := byteBitStep (takeBit 0 completeCommand) s

/-- COMMAND_BYTE.ONE (42_framer.md R165). -/
def execCommandByteOne (s : State) : StepResult := byteBitStep (takeBit 1 completeCommand) s

/-- COMMAND_BYTE.BIT_ERROR (42_framer.md R165, R175). -/
def execCommandByteBitError (s : State) : StepResult :=
  byteBitStep (fun t => .next (bitFail .bitError t)) s

/-- COMMAND_BYTE.FRAMING_ERROR (42_framer.md R165, R175). -/
def execCommandByteFramingError (s : State) : StepResult :=
  byteBitStep (fun t => .next (bitFail .framingError t)) s

/-- DATA_BYTE.ZERO (42_framer.md R168). -/
def execDataByteZero (s : State) : StepResult := byteBitStep (takeBit 0 completeData) s

/-- DATA_BYTE.ONE (42_framer.md R168). -/
def execDataByteOne (s : State) : StepResult := byteBitStep (takeBit 1 completeData) s

/-- DATA_BYTE.BIT_ERROR (42_framer.md R168, R175). -/
def execDataByteBitError (s : State) : StepResult :=
  byteBitStep (fun t => .next (bitFail .bitError t)) s

/-- DATA_BYTE.FRAMING_ERROR (42_framer.md R168, R175). -/
def execDataByteFramingError (s : State) : StepResult :=
  byteBitStep (fun t => .next (bitFail .framingError t)) s

/-- CHECKSUM_BYTE.ZERO (42_framer.md R171). -/
def execChecksumByteZero (s : State) : StepResult := byteBitStep (takeBit 0 completeChecksum) s

/-- CHECKSUM_BYTE.ONE (42_framer.md R171). -/
def execChecksumByteOne (s : State) : StepResult := byteBitStep (takeBit 1 completeChecksum) s

/-- CHECKSUM_BYTE.BIT_ERROR (42_framer.md R171, R175). -/
def execChecksumByteBitError (s : State) : StepResult :=
  byteBitStep (fun t => .next (bitFail .bitError t)) s

/-- CHECKSUM_BYTE.FRAMING_ERROR (42_framer.md R171, R175). -/
def execChecksumByteFramingError (s : State) : StepResult :=
  byteBitStep (fun t => .next (bitFail .framingError t)) s

end Sys2Proof.Machine
end

