-- ==== Sys2Proof/Machine/Hunt.lean ====
section
/-! DEFINITION. The meanings of HUNT (spec/42_framer.md R162). HUNT emits nothing, not even for an
ERROR half-bit. -/

namespace Sys2Proof.Machine

/-- The ONE branch of HUNT after the half-bit that began at `a` was consumed: count it, and leave for
PREAMBLE at `2 * CFG_PREAMBLE_BITS` half-bits (42_framer.md R162, 90_conflicts.md C1). -/
def countPreamble (a : Pos) (s : State) : State :=
  { s with
    pstart := if s.pcnt = 0 then a else s.pstart
    pcnt := countOne s.pcnt
    st := if 2 * s.cfg.preambleBits.toNat ≤ (countOne s.pcnt).toNat then St.preamble else s.st }

/-- A half-bit other than ONE restarts the count (42_framer.md R162). -/
def restartCount (s : State) : State := { s with pcnt := 0 }

/-- HUNT.ONE (42_framer.md R162). -/
def execHuntOne (s : State) : StepResult :=
  whenReady (supplyOne s) s fun e => .next (countPreamble s.cur (consume e s).2)

/-- HUNT.ZERO (42_framer.md R162). -/
def execHuntZero (s : State) : StepResult :=
  whenReady (supplyOne s) s fun e => .next (restartCount (consume e s).2)

/-- HUNT.ERROR (42_framer.md R162). -/
def execHuntError (s : State) : StepResult :=
  whenReady (supplyOne s) s fun e => .next (restartCount (consume e s).2)

end Sys2Proof.Machine
end

