-- ==== Sys2Proof/Machine/PacketEnd.lean ====
section
/-! DEFINITION. The meanings of PACKET_END, GAP_SKIP and HALTED (spec/42_framer.md R172 to R174). -/

namespace Sys2Proof.Machine

/-- PACKET_END.GAP: emit PEBIT and go to skip the gap, which is not consumed yet
(42_framer.md R172). -/
def execPacketEndGap (s : State) : StepResult :=
  whenReady (supplyOne s) s fun e =>
    let s1 := emit (bareFrame .pebit s.cur e) s
    .next (goto St.gapSkip { s1 with pcnt := 0 })

/-- PACKET_END.ONE: emit PEBIT, consume the peeked ONE and count it as the next packet's first
preamble half-bit (42_framer.md R172, 90_conflicts.md C8). -/
def execPacketEndOne (s : State) : StepResult :=
  whenReady (supplyOne s) s fun e =>
    let s1 := (consume e (emit (bareFrame .pebit s.cur e) s)).2
    .next { toHunt 1 s1 with pstart := s.cur }

/-- PACKET_END.ZERO: an error, the interval is not consumed (42_framer.md R172). -/
def execPacketEndZero (s : State) : StepResult :=
  whenReady (supplyOne s) s fun e => .next (raiseError .unexpectedZero s.cur e s)

/-- PACKET_END.ERROR: an error, the interval is not consumed (42_framer.md R172). -/
def execPacketEndError (s : State) : StepResult :=
  whenReady (supplyOne s) s fun e => .next (raiseError .halfBitError s.cur e s)

/-- GAP_SKIP.GAP: consume one gap interval, Consume's result ignored (42_framer.md R173). -/
def execGapSkipGap (s : State) : StepResult :=
  whenReady (supplyOne s) s fun e => .next (consume e s).2

/-- GAP_SKIP.ONE: the skip ends, the interval is left for HUNT (42_framer.md R173). -/
def execGapSkipOne (s : State) : StepResult :=
  whenReady (supplyOne s) s fun _ => .next (toHunt 0 s)

/-- GAP_SKIP.ZERO: the skip ends, the interval is left for HUNT (42_framer.md R173). -/
def execGapSkipZero (s : State) : StepResult :=
  whenReady (supplyOne s) s fun _ => .next (toHunt 0 s)

/-- GAP_SKIP.ERROR: the skip ends, the interval is left for HUNT (42_framer.md R173). -/
def execGapSkipError (s : State) : StepResult :=
  whenReady (supplyOne s) s fun _ => .next (toHunt 0 s)

/-- HALTED: the block has no step, so the state is unchanged (42_framer.md R174; log entry 1). -/
def execHalted (s : State) : StepResult := .next s

end Sys2Proof.Machine
end

