-- ==== Sys2Proof/Machine/Preamble.lean ====
section
/-! DEFINITION. The meanings of PREAMBLE (spec/42_framer.md R163). -/

namespace Sys2Proof.Machine

/-- The PREAMBLE frame: whole bits and half-bits counted, from `pstart` to the cursor
(30_encoding.md R99). -/
def preambleFrame (s : State) : Frame :=
  { startSample := s.pstart, endSample := s.cur, frameType := .preamble, flags := 0,
    data1 := (s.pcnt >>> 1).setWidth 64, data2 := s.pcnt.setWidth 64 }

/-- PREAMBLE.ONE: consume and count (42_framer.md R163). -/
def execPreambleOne (s : State) : StepResult :=
  whenReady (supplyOne s) s fun e =>
    let s1 := (consume e s).2
    .next { s1 with pcnt := countOne s1.pcnt }

/-- PREAMBLE.ZERO: the preamble ends, the ZERO is not consumed (42_framer.md R163). -/
def execPreambleZero (s : State) : StepResult :=
  whenReady (supplyOne s) s fun _ => .next (goto St.packetStart (emit (preambleFrame s) s))

/-- PREAMBLE.GAP: an error, the gap is not consumed (42_framer.md R163). -/
def execPreambleGap (s : State) : StepResult :=
  whenReady (supplyOne s) s fun e => .next (raiseError .unexpectedGap s.pstart e s)

/-- PREAMBLE.ERROR: an error, the interval is not consumed (42_framer.md R163). -/
def execPreambleError (s : State) : StepResult :=
  whenReady (supplyOne s) s fun e => .next (raiseError .halfBitError s.pstart e s)

end Sys2Proof.Machine
end

