-- ==== Sys2Proof/Machine/StartBits.lean ====
section
/-! DEFINITION. The meanings of the three start-bit states PACKET_START, DATA_START and
DATA_START_FOR_CHECKSUM (spec/42_framer.md R164, R167, R170, R175). -/

namespace Sys2Proof.Machine

/-- A ZERO bit confirms a packet start bit (42_framer.md R164). -/
def confirmPacketStart (s : State) : State :=
  goto St.commandByte (cksInit (clearByte (emit (bareFrame .psbit s.ustart s.cur) s)))

/-- A ZERO bit confirms a data start bit; `next` is the byte state that follows
(42_framer.md R167, R170). -/
def confirmDataStart (next : BitVec 4) (s : State) : State :=
  goto next (clearByte (emit (bareFrame .dsbit s.ustart s.cur) s))

/-- PACKET_START.ZERO (42_framer.md R164). -/
def execPacketStartZero (s : State) : StepResult := startBitStep confirmPacketStart s

/-- PACKET_START.ONE (42_framer.md R164, R175): unreachable from reset, kept for totality (90_conflicts.md
C14; log entry 17). -/
def execPacketStartOne (s : State) : StepResult := startBitStep (bitFail .unexpectedOne) s

/-- PACKET_START.BIT_ERROR (42_framer.md R164, R175). -/
def execPacketStartBitError (s : State) : StepResult := startBitStep (bitFail .bitError) s

/-- PACKET_START.FRAMING_ERROR (42_framer.md R164, R175). -/
def execPacketStartFramingError (s : State) : StepResult := startBitStep (bitFail .framingError) s

/-- DATA_START.ZERO (42_framer.md R167). -/
def execDataStartZero (s : State) : StepResult := startBitStep (confirmDataStart St.dataByte) s

/-- DATA_START.ONE (42_framer.md R167, R175). -/
def execDataStartOne (s : State) : StepResult := startBitStep (bitFail .unexpectedOne) s

/-- DATA_START.BIT_ERROR (42_framer.md R167, R175). -/
def execDataStartBitError (s : State) : StepResult := startBitStep (bitFail .bitError) s

/-- DATA_START.FRAMING_ERROR (42_framer.md R167, R175). -/
def execDataStartFramingError (s : State) : StepResult := startBitStep (bitFail .framingError) s

/-- DATA_START_FOR_CHECKSUM.ZERO (42_framer.md R170). -/
def execChecksumStartZero (s : State) : StepResult :=
  startBitStep (confirmDataStart St.checksumByte) s

/-- DATA_START_FOR_CHECKSUM.ONE (42_framer.md R170, R175). -/
def execChecksumStartOne (s : State) : StepResult := startBitStep (bitFail .unexpectedOne) s

/-- DATA_START_FOR_CHECKSUM.BIT_ERROR (42_framer.md R170, R175). -/
def execChecksumStartBitError (s : State) : StepResult := startBitStep (bitFail .bitError) s

/-- DATA_START_FOR_CHECKSUM.FRAMING_ERROR (42_framer.md R170, R175). -/
def execChecksumStartFramingError (s : State) : StepResult := startBitStep (bitFail .framingError) s

end Sys2Proof.Machine
end

