-- ==== Sys2Proof/Syntax.lean ====
section
/-! DEFINITION. The instructions of the SSD decoder: one constructor for each row of
spec/opcode_table.json. An instruction of this block is one branch of one state's operation, named by
the 6-bit transition key `st || in` (spec/00_scope.md R2; spec/30_encoding.md R92, R95, R111). No row
has an operand field. -/

namespace Sys2Proof

/-- The 40 rows of the transition-key table (30_encoding.md R111). -/
inductive Instr where
  /-- HUNT.ZERO, key 000000 (42_framer.md R162, input a Consume symbol). -/
  | huntZero
  /-- HUNT.ONE, key 000001 (42_framer.md R162, input a Consume symbol). -/
  | huntOne
  /-- HUNT.ERROR, key 000011 (42_framer.md R162, input a Consume symbol). -/
  | huntError
  /-- PREAMBLE.ZERO, key 000100 (42_framer.md R163, input a Peek symbol). -/
  | preambleZero
  /-- PREAMBLE.ONE, key 000101 (42_framer.md R163, input a Peek symbol). -/
  | preambleOne
  /-- PREAMBLE.GAP, key 000110 (42_framer.md R163, input a Peek symbol). -/
  | preambleGap
  /-- PREAMBLE.ERROR, key 000111 (42_framer.md R163, input a Peek symbol). -/
  | preambleError
  /-- PACKET_START.ZERO, key 001000 (42_framer.md R164, input a LogicalBit). -/
  | packetStartZero
  /-- PACKET_START.ONE, key 001001 (42_framer.md R164, input a LogicalBit). -/
  | packetStartOne
  /-- PACKET_START.BIT_ERROR, key 001010 (42_framer.md R164, input a LogicalBit). -/
  | packetStartBitError
  /-- PACKET_START.FRAMING_ERROR, key 001011 (42_framer.md R164, input a LogicalBit). -/
  | packetStartFramingError
  /-- COMMAND_BYTE.ZERO, key 001100 (42_framer.md R165, input a LogicalBit). -/
  | commandByteZero
  /-- COMMAND_BYTE.ONE, key 001101 (42_framer.md R165, input a LogicalBit). -/
  | commandByteOne
  /-- COMMAND_BYTE.BIT_ERROR, key 001110 (42_framer.md R165, input a LogicalBit). -/
  | commandByteBitError
  /-- COMMAND_BYTE.FRAMING_ERROR, key 001111 (42_framer.md R165, input a LogicalBit). -/
  | commandByteFramingError
  /-- DATA_START.ZERO, key 010000 (42_framer.md R167, input a LogicalBit). -/
  | dataStartZero
  /-- DATA_START.ONE, key 010001 (42_framer.md R167, input a LogicalBit). -/
  | dataStartOne
  /-- DATA_START.BIT_ERROR, key 010010 (42_framer.md R167, input a LogicalBit). -/
  | dataStartBitError
  /-- DATA_START.FRAMING_ERROR, key 010011 (42_framer.md R167, input a LogicalBit). -/
  | dataStartFramingError
  /-- DATA_BYTE.ZERO, key 010100 (42_framer.md R168, input a LogicalBit). -/
  | dataByteZero
  /-- DATA_BYTE.ONE, key 010101 (42_framer.md R168, input a LogicalBit). -/
  | dataByteOne
  /-- DATA_BYTE.BIT_ERROR, key 010110 (42_framer.md R168, input a LogicalBit). -/
  | dataByteBitError
  /-- DATA_BYTE.FRAMING_ERROR, key 010111 (42_framer.md R168, input a LogicalBit). -/
  | dataByteFramingError
  /-- DATA_START_FOR_CHECKSUM.ZERO, key 011000 (42_framer.md R170, input a LogicalBit). -/
  | checksumStartZero
  /-- DATA_START_FOR_CHECKSUM.ONE, key 011001 (42_framer.md R170, input a LogicalBit). -/
  | checksumStartOne
  /-- DATA_START_FOR_CHECKSUM.BIT_ERROR, key 011010 (42_framer.md R170, input a LogicalBit). -/
  | checksumStartBitError
  /-- DATA_START_FOR_CHECKSUM.FRAMING_ERROR, key 011011 (42_framer.md R170, input a LogicalBit). -/
  | checksumStartFramingError
  /-- CHECKSUM_BYTE.ZERO, key 011100 (42_framer.md R171, input a LogicalBit). -/
  | checksumByteZero
  /-- CHECKSUM_BYTE.ONE, key 011101 (42_framer.md R171, input a LogicalBit). -/
  | checksumByteOne
  /-- CHECKSUM_BYTE.BIT_ERROR, key 011110 (42_framer.md R171, input a LogicalBit). -/
  | checksumByteBitError
  /-- CHECKSUM_BYTE.FRAMING_ERROR, key 011111 (42_framer.md R171, input a LogicalBit). -/
  | checksumByteFramingError
  /-- PACKET_END.ZERO, key 100000 (42_framer.md R172, input a Peek symbol). -/
  | packetEndZero
  /-- PACKET_END.ONE, key 100001 (42_framer.md R172, input a Peek symbol). -/
  | packetEndOne
  /-- PACKET_END.GAP, key 100010 (42_framer.md R172, input a Peek symbol). -/
  | packetEndGap
  /-- PACKET_END.ERROR, key 100011 (42_framer.md R172, input a Peek symbol). -/
  | packetEndError
  /-- GAP_SKIP.ZERO, key 100100 (42_framer.md R173, input a Peek symbol). -/
  | gapSkipZero
  /-- GAP_SKIP.ONE, key 100101 (42_framer.md R173, input a Peek symbol). -/
  | gapSkipOne
  /-- GAP_SKIP.GAP, key 100110 (42_framer.md R173, input a Peek symbol). -/
  | gapSkipGap
  /-- GAP_SKIP.ERROR, key 100111 (42_framer.md R173, input a Peek symbol). -/
  | gapSkipError
  /-- HALTED, key 1111xx (42_framer.md R174, no input). -/
  | halted
  deriving DecidableEq, Repr

end Sys2Proof
end

