-- ==== Sys2Proof/Machine/Dispatch.lean ====
section
/-! DEFINITION. The meaning of every instruction: one arm for each row of spec/opcode_table.json. -/

namespace Sys2Proof.Machine

open Sys2Proof

/-- The meaning of an instruction in a state (00_scope.md R12; 42_framer.md R160). -/
def exec (i : Instr) (s : State) : Host.Outcome State Fault Refusal :=
  match i with
  | .huntZero => Sys2Proof.Machine.execHuntZero s
  | .huntOne => Sys2Proof.Machine.execHuntOne s
  | .huntError => Sys2Proof.Machine.execHuntError s
  | .preambleZero => Sys2Proof.Machine.execPreambleZero s
  | .preambleOne => Sys2Proof.Machine.execPreambleOne s
  | .preambleGap => Sys2Proof.Machine.execPreambleGap s
  | .preambleError => Sys2Proof.Machine.execPreambleError s
  | .packetStartZero => Sys2Proof.Machine.execPacketStartZero s
  | .packetStartOne => Sys2Proof.Machine.execPacketStartOne s
  | .packetStartBitError => Sys2Proof.Machine.execPacketStartBitError s
  | .packetStartFramingError => Sys2Proof.Machine.execPacketStartFramingError s
  | .commandByteZero => Sys2Proof.Machine.execCommandByteZero s
  | .commandByteOne => Sys2Proof.Machine.execCommandByteOne s
  | .commandByteBitError => Sys2Proof.Machine.execCommandByteBitError s
  | .commandByteFramingError => Sys2Proof.Machine.execCommandByteFramingError s
  | .dataStartZero => Sys2Proof.Machine.execDataStartZero s
  | .dataStartOne => Sys2Proof.Machine.execDataStartOne s
  | .dataStartBitError => Sys2Proof.Machine.execDataStartBitError s
  | .dataStartFramingError => Sys2Proof.Machine.execDataStartFramingError s
  | .dataByteZero => Sys2Proof.Machine.execDataByteZero s
  | .dataByteOne => Sys2Proof.Machine.execDataByteOne s
  | .dataByteBitError => Sys2Proof.Machine.execDataByteBitError s
  | .dataByteFramingError => Sys2Proof.Machine.execDataByteFramingError s
  | .checksumStartZero => Sys2Proof.Machine.execChecksumStartZero s
  | .checksumStartOne => Sys2Proof.Machine.execChecksumStartOne s
  | .checksumStartBitError => Sys2Proof.Machine.execChecksumStartBitError s
  | .checksumStartFramingError => Sys2Proof.Machine.execChecksumStartFramingError s
  | .checksumByteZero => Sys2Proof.Machine.execChecksumByteZero s
  | .checksumByteOne => Sys2Proof.Machine.execChecksumByteOne s
  | .checksumByteBitError => Sys2Proof.Machine.execChecksumByteBitError s
  | .checksumByteFramingError => Sys2Proof.Machine.execChecksumByteFramingError s
  | .packetEndZero => Sys2Proof.Machine.execPacketEndZero s
  | .packetEndOne => Sys2Proof.Machine.execPacketEndOne s
  | .packetEndGap => Sys2Proof.Machine.execPacketEndGap s
  | .packetEndError => Sys2Proof.Machine.execPacketEndError s
  | .gapSkipZero => Sys2Proof.Machine.execGapSkipZero s
  | .gapSkipOne => Sys2Proof.Machine.execGapSkipOne s
  | .gapSkipGap => Sys2Proof.Machine.execGapSkipGap s
  | .gapSkipError => Sys2Proof.Machine.execGapSkipError s
  | .halted => Sys2Proof.Machine.execHalted s

end Sys2Proof.Machine
end

