-- ==== Sys2Proof/Decode.lean ====
section
/-! DEFINITION. Decoding and encoding of the transition key (format KEY of spec/30_encoding.md R92:
`key[5:2] = st`, `key[1:0] = in`). Decoding is total and rejects by name. -/

namespace Sys2Proof

/-- Why a key or a key byte stands for no instruction. -/
inductive DecodeReject where
  /-- `st` is one of the reserved codes 0xA to 0xE (30_encoding.md R91). Safe. -/
  | reservedState
  /-- The key 0b000010, HUNT with a GAP, which Consume never returns (30_encoding.md R95). Safe. -/
  | unreachableKey
  /-- Bits 7 and 6 of a key byte are not 0 (log entry 9). Safe. -/
  | notAKeyByte
  /-- There is no byte to decode. Safe. -/
  | truncated
  deriving DecidableEq, Repr

/-- One row of spec/opcode_table.json: a key belongs to it when `key &&& mask = pattern`. -/
structure KeyRow where
  pattern : BitVec 6
  mask : BitVec 6
  instr : Instr
  deriving DecidableEq, Repr

/-- The 40 rows of spec/opcode_table.json (30_encoding.md R92, R111). -/
def keyRows : List KeyRow :=
  [ ⟨0b000000, 0b111111, .huntZero⟩
  , ⟨0b000001, 0b111111, .huntOne⟩
  , ⟨0b000011, 0b111111, .huntError⟩ ] ++
  [ ⟨0b000100, 0b111111, .preambleZero⟩
  , ⟨0b000101, 0b111111, .preambleOne⟩
  , ⟨0b000110, 0b111111, .preambleGap⟩
  , ⟨0b000111, 0b111111, .preambleError⟩ ] ++
  [ ⟨0b001000, 0b111111, .packetStartZero⟩
  , ⟨0b001001, 0b111111, .packetStartOne⟩
  , ⟨0b001010, 0b111111, .packetStartBitError⟩
  , ⟨0b001011, 0b111111, .packetStartFramingError⟩ ] ++
  [ ⟨0b001100, 0b111111, .commandByteZero⟩
  , ⟨0b001101, 0b111111, .commandByteOne⟩
  , ⟨0b001110, 0b111111, .commandByteBitError⟩
  , ⟨0b001111, 0b111111, .commandByteFramingError⟩ ] ++
  [ ⟨0b010000, 0b111111, .dataStartZero⟩
  , ⟨0b010001, 0b111111, .dataStartOne⟩
  , ⟨0b010010, 0b111111, .dataStartBitError⟩
  , ⟨0b010011, 0b111111, .dataStartFramingError⟩ ] ++
  [ ⟨0b010100, 0b111111, .dataByteZero⟩
  , ⟨0b010101, 0b111111, .dataByteOne⟩
  , ⟨0b010110, 0b111111, .dataByteBitError⟩
  , ⟨0b010111, 0b111111, .dataByteFramingError⟩ ] ++
  [ ⟨0b011000, 0b111111, .checksumStartZero⟩
  , ⟨0b011001, 0b111111, .checksumStartOne⟩
  , ⟨0b011010, 0b111111, .checksumStartBitError⟩
  , ⟨0b011011, 0b111111, .checksumStartFramingError⟩ ] ++
  [ ⟨0b011100, 0b111111, .checksumByteZero⟩
  , ⟨0b011101, 0b111111, .checksumByteOne⟩
  , ⟨0b011110, 0b111111, .checksumByteBitError⟩
  , ⟨0b011111, 0b111111, .checksumByteFramingError⟩ ] ++
  [ ⟨0b100000, 0b111111, .packetEndZero⟩
  , ⟨0b100001, 0b111111, .packetEndOne⟩
  , ⟨0b100010, 0b111111, .packetEndGap⟩
  , ⟨0b100011, 0b111111, .packetEndError⟩ ] ++
  [ ⟨0b100100, 0b111111, .gapSkipZero⟩
  , ⟨0b100101, 0b111111, .gapSkipOne⟩
  , ⟨0b100110, 0b111111, .gapSkipGap⟩
  , ⟨0b100111, 0b111111, .gapSkipError⟩ ] ++
  [ ⟨0b111100, 0b111100, .halted⟩ ]

/-- The instruction of a transition key: the one row it matches, or a rejection by name. -/
def decodeKey (key : BitVec 6) : Except DecodeReject Instr :=
  match keyRows.find? (fun r => key &&& r.mask == r.pattern) with
  | some r => .ok r.instr
  | none => if key.extractLsb' 2 4 = 0 then .error .unreachableKey else .error .reservedState

/-- The transition key of a state code and an input (30_encoding.md R92). -/
def keyOf (st : BitVec 4) (input : BitVec 2) : BitVec 6 := st ++ input

/-- The instruction at the head of a byte string and the bytes after it. A key is stored in one byte,
in bits 5..0, with bits 7 and 6 zero (DESIGN CHOICE, safe, log entry 9: the block stores no
instructions). -/
def decode : List Byte → Except DecodeReject (Instr × List Byte)
  | [] => .error .truncated
  | b :: rest =>
    if b.extractLsb' 6 2 = 0 then
      match decodeKey (b.extractLsb' 0 6) with
      | .ok i => .ok (i, rest)
      | .error r => .error r
    else .error .notAKeyByte

/-- The transition key of an instruction, from the table (HALTED's ignored input bits as zero). -/
def encodeKey : Instr → BitVec 6
  | .huntZero => 0b000000
  | .huntOne => 0b000001
  | .huntError => 0b000011
  | .preambleZero => 0b000100
  | .preambleOne => 0b000101
  | .preambleGap => 0b000110
  | .preambleError => 0b000111
  | .packetStartZero => 0b001000
  | .packetStartOne => 0b001001
  | .packetStartBitError => 0b001010
  | .packetStartFramingError => 0b001011
  | .commandByteZero => 0b001100
  | .commandByteOne => 0b001101
  | .commandByteBitError => 0b001110
  | .commandByteFramingError => 0b001111
  | .dataStartZero => 0b010000
  | .dataStartOne => 0b010001
  | .dataStartBitError => 0b010010
  | .dataStartFramingError => 0b010011
  | .dataByteZero => 0b010100
  | .dataByteOne => 0b010101
  | .dataByteBitError => 0b010110
  | .dataByteFramingError => 0b010111
  | .checksumStartZero => 0b011000
  | .checksumStartOne => 0b011001
  | .checksumStartBitError => 0b011010
  | .checksumStartFramingError => 0b011011
  | .checksumByteZero => 0b011100
  | .checksumByteOne => 0b011101
  | .checksumByteBitError => 0b011110
  | .checksumByteFramingError => 0b011111
  | .packetEndZero => 0b100000
  | .packetEndOne => 0b100001
  | .packetEndGap => 0b100010
  | .packetEndError => 0b100011
  | .gapSkipZero => 0b100100
  | .gapSkipOne => 0b100101
  | .gapSkipGap => 0b100110
  | .gapSkipError => 0b100111
  | .halted => 0b111100

/-- The bytes of an instruction: its key in one byte. -/
def encode (i : Instr) : List Byte := [(encodeKey i).setWidth 8]

/-- Byte `n` of a number laid out least significant byte first. -/
def byteOfNat (w n : Nat) : Byte := BitVec.ofNat 8 (w / 2 ^ (8 * n))

/-- The instruction the decoder reads from the `nbits` bits of `w`, laid out as whole bytes, the
least significant first; none where it rejects or bytes are left over. -/
def decodeTableWord (nbits w : Nat) : Option Instr :=
  match decode ((List.range ((nbits + 7) / 8)).map (byteOfNat w)) with
  | .ok (i, []) => some i
  | _ => none

end Sys2Proof
end

