-- ==== Sys2Proof/Machine/ConfigPort.lean ====
section
/-! DEFINITION. The configuration registers by number and the validity rule (spec/10_state.md R50,
R53; spec/30_encoding.md R104). -/

namespace Sys2Proof.Machine

/-- Configuration validity (10_state.md R50). -/
def CfgRegs.valid (c : CfgRegs) : Bool :=
  decide (1 ≤ c.min1.toNat) && decide (c.min1.toNat ≤ c.max1.toNat) &&
    decide (c.max1.toNat < c.min0.toNat) && decide (c.min0.toNat ≤ c.max0.toNat) &&
    decide (8 ≤ c.preambleBits.toNat) && decide (c.preambleBits.toNat ≤ 22) &&
    (c.programBytes == 4 || c.programBytes == 6) &&
    decide (1 ≤ c.unknownBytes.toNat) && decide (c.unknownBytes.toNat ≤ 6)

/-- The formula a written bit selects (10_state.md R48). -/
def formulaOfBit (b : BitVec 1) : CksumFormula := if b = 0 then .xorData else .ffCmdData

/-- Read configuration register `n`; reserved numbers and unused upper bits read as 0
(30_encoding.md R104). -/
def CfgRegs.read (c : CfgRegs) : Nat → Word64
  | 0 => c.min1
  | 1 => c.max1
  | 2 => c.min0
  | 3 => c.max0
  | 4 => c.minGap
  | 5 => c.maxGap
  | 6 => c.maxBit
  | 7 => c.preambleBits.setWidth 64
  | 8 => c.cksumFormula.code.setWidth 64
  | 9 => c.programBytes.setWidth 64
  | 10 => c.unknownBytes.setWidth 64
  | 11 => c.start
  | _ => 0

/-- Write `v` to configuration register `n`; a reserved number is ignored, unused upper bits are
dropped (30_encoding.md R104). -/
def CfgRegs.write (c : CfgRegs) (n : Nat) (v : Word64) : CfgRegs :=
  match n with
  | 0 => { c with min1 := v }
  | 1 => { c with max1 := v }
  | 2 => { c with min0 := v }
  | 3 => { c with max0 := v }
  | 4 => { c with minGap := v }
  | 5 => { c with maxGap := v }
  | 6 => { c with maxBit := v }
  | 7 => { c with preambleBits := v.setWidth 5 }
  | 8 => { c with cksumFormula := formulaOfBit (v.setWidth 1) }
  | 9 => { c with programBytes := v.setWidth 3 }
  | 10 => { c with unknownBytes := v.setWidth 3 }
  | 11 => { c with start := v }
  | _ => c

end Sys2Proof.Machine
end

