-- ==== Sys2Proof/Machine/Fetch.lean ====
section
/-! DEFINITION. How a step finds its instruction: the transition key made of `st` and the input of its
operation, and the conditions under which a step has an instruction at all (spec/30_encoding.md R91,
R92, R95; spec/42_framer.md R160; spec/60_exceptions.md R248, R252, R253). -/

namespace Sys2Proof.Machine

/-- The answer of a supply with `f` applied to what is ready. -/
def Supply.map {α β : Type} (f : α → β) : Supply α → Supply β
  | .ready a => .ready (f a)
  | .exhausted => .exhausted
  | .waiting => .waiting
  | .edgeFault => .edgeFault

/-- The input of a one-edge state for its next edge `e`: Consume's symbol in HUNT, Peek's in the other
three (30_encoding.md R95). -/
def symbolInput (e : Pos) (s : State) : HalfBitSymbol :=
  if s.st = St.hunt then (consume e s).1 else peekSymbol e s

/-- The transition key of the next step of a running state (30_encoding.md R92, R95). -/
def fetchKey (s : State) : Supply (BitVec 6) :=
  if needsTwoEdges s.st then
    (supplyTwo s).map fun p => keyOf s.st (assembleBit p.1 p.2 s).1.code
  else (supplyOne s).map fun e => keyOf s.st (symbolInput e s).code

/-- The ten running states (30_encoding.md R90). -/
def isRunning (st : BitVec 4) : Bool := decide (st.toNat ≤ 9)

/-- The states between steps for which no step is defined and the model stays where it is
(10_state.md R27, R30; 93_implementation_defined.md U9). -/
def isStuck (s : State) : Bool := decide (8 ≤ s.ctx.bidx.toNat) || s.ctx.carIndex == 7

/-- The block halted with EDGE_FAULT: the error state that a model treats as a fault
(60_exceptions.md R251; log entry 3). -/
def edgeFaulted (s : State) : Bool := decide (s.st = St.halted) && decide (s.hcause = .edgeFault)

/-- Whether a cancellation is taken at this boundary: never inside a byte, always when it is forced,
else by the free choice (60_exceptions.md R248; log entry 4). -/
def cancelTaken (s : State) : Bool :=
  s.cancel && s.ctx.bidx == 0 && (s.cancelDue || Config.cancelNow s.choice)

/-- The free choice of a boundary with cancel raised is used up, taken or not: the next one is a fresh one
(log entry 4). -/
def nextChoice (s : State) : State :=
  { s with choice := if s.cancel then s.choice + 1 else s.choice }

/-- After a step from `s` to `t`: if cancel was raised and the step emitted a frame or changed `st`,
the halt is forced at the next boundary outside a byte (60_exceptions.md R248; log entry 5). -/
def noteTransition (s t : State) : State :=
  { t with
    cancelDue := t.cancelDue || (s.cancel && (t.out.commits != s.out.commits || t.st != s.st)) }

/-- The two intervals that give an input under the windows of `fetchCfg`: for a one-edge state the
first is the interval and the second is not used. -/
def inputIntervals (st : BitVec 4) (input : BitVec 2) : Nat × Nat :=
  if needsTwoEdges st then
    if input = 0b00 then (115, 115)
    else if input = 0b01 then (60, 60)
    else if input = 0b10 then (60, 80)
    else (60, 115)
  else
    if input = 0b00 then (115, 115)
    else if input = 0b01 then (60, 60)
    else if input = 0b10 then (400, 60)
    else (80, 60)

/-- A configuration under which `inputIntervals` gives every input: the example windows, the other
registers kept where they are valid. -/
def fetchCfg (c : CfgRegs) : CfgRegs :=
  if c.valid then
    { CfgRegs.reset with
      preambleBits := c.preambleBits, cksumFormula := c.cksumFormula,
      programBytes := c.programBytes, unknownBytes := c.unknownBytes, start := c.start }
  else CfgRegs.reset

/-- `s` made ready to run the instruction of `key` as its very next step (log entry 8): the state
register, the input's intervals at the Edge Source and the windows that read them; the reset line and
cancel lowered; a cursor, an index, a byte register or an edge fault is changed only where no step could run
with it. -/
def placeKey (key : BitVec 6) (s : State) : State :=
  let st := key.extractLsb' 2 4
  let iv := inputIntervals st (key.extractLsb' 0 2)
  let cur : Pos := if s.cur.toNat + 1000 < 2 ^ 64 then s.cur else 0
  let past := s.src.edges.take s.k
  { s with
    st := st
    cur := cur
    k := past.length
    src.edges := past ++ [cur + BitVec.ofNat 64 iv.1, cur + BitVec.ofNat 64 (iv.1 + iv.2)]
    cfg := fetchCfg s.cfg
    held := false
    cancel := false
    cancelDue := false
    hcause := if s.hcause = .edgeFault then .none else s.hcause
    ctx.bidx := if 8 ≤ s.ctx.bidx.toNat then 0 else s.ctx.bidx
    ctx.carIndex := if s.ctx.carIndex = 7 then 0 else s.ctx.carIndex }

end Sys2Proof.Machine
end

