-- ==== Sys2Proof/Machine/Step.lean ====
section
/-! DEFINITION. One step of the SSD decoder (spec/42_framer.md R160) with the cancellation event that
may be taken instead of it (spec/60_exceptions.md R248, R253). -/

namespace Sys2Proof.Machine

/-- Run the instruction of a key. -/
def runKey (s : State) (key : BitVec 6) : StepResult :=
  match decodeKey key with
  | .ok i => mapNext (noteTransition s) (exec i s)
  | .error _ => .fault .unreachableKey

/-- One step. Held in reset or with no step defined for it, the block stays where it is; a run that halted
with EDGE_FAULT faults (R251); HALTED otherwise has its own row; a reserved state faults (R91); an invalid configuration is refused (R252); else
cancellation comes before exhaustion, edge fault and the operation of the state (R253). A boundary with
cancel raised uses up its free choice whether the halt is taken or not, so no choice is asked twice
(log entry 4). -/
def step (s : State) : Host.Outcome State Fault Refusal :=
  if s.held then .next s
  else if edgeFaulted s then .fault .edgeFault
  else if s.st = St.halted then runKey s (keyOf s.st 0)
  else if !isRunning s.st then .fault .reservedState
  else if !s.cfg.valid then .refused .invalidConfiguration
  else if isStuck s then .next s
  else if cancelTaken s then .next (halt .cancelled (nextChoice s))
  else whenReady (fetchKey (nextChoice s)) (nextChoice s) (runKey (nextChoice s))

/-- `s` with the instruction of the table word `w` as its very next step. The key is the six low bits
of `w`. -/
def State.withFetchWord (s : State) (_nbits w : Nat) : State := placeKey (BitVec.ofNat 6 w) s

end Sys2Proof.Machine
end

