-- ==== Sys2Proof/Machine/HostPort.lean ====
section
/-! DEFINITION. What the host can do to the block between two steps: reset, configuration, edges, the
end of the capture, cancel (spec/20_memory.md R61 to R66, R83; spec/60_exceptions.md R248;
spec/70_reset_and_hazards.md R280 to R291). -/

namespace Sys2Proof.Machine

/-- Hold the block in reset (70_reset_and_hazards.md R280, R283). DESIGN CHOICE (log entry 14): the capture
of the previous run is disconnected and cancel is lowered here, and holding a held block again does the
same. -/
def hostHoldReset (s : State) : State :=
  { s with held := true, src := .empty, cancel := false, cancelDue := false }

/-- Release reset: every register takes the value of 10_state.md R54, the output history is empty, the
configuration registers are kept (70_reset_and_hazards.md R280). DESIGN CHOICE, unsafe (log entry 14): the
edges delivered while the block was held are kept, and a cancel raised while it was held is lowered here,
where 60_exceptions.md R248 says only that cancel "stays raised until reset". The counter of free choices
is kept: it stands past every choice already asked, so a new run makes fresh ones (log entry 4). The spec
describes the release of a held block only; that a release of a block that is NOT held resets it as well,
with the running capture's edges kept and read again from the first, is a DESIGN CHOICE, unsafe (log entry
14). -/
def hostReleaseReset (s : State) : State :=
  { State.reset with
    cur := s.cfg.start, cfg := s.cfg, src := s.src, policy := s.policy, choice := s.choice }

/-- Write configuration register `n`, in reset or halted only (10_state.md R53; R104, R290). -/
def hostWriteCfg (n : Nat) (v : Word64) (s : State) : StepResult :=
  if s.held = true ∨ s.st = St.halted then .next { s with cfg := s.cfg.write n v }
  else .refused .configWriteWhileRunning

/-- Read configuration register `n` (30_encoding.md R104). -/
def hostReadCfg (n : Nat) (s : State) : Word64 := s.cfg.read n

/-- Deliver the next edge, at sample position `p` (20_memory.md R61, R64). A position past 2^64 - 1 is
refused (R66); an edge out of order is delivered and the block judges it (R251). -/
def hostDeliver (p : Nat) (s : State) : StepResult :=
  if s.src.ended = true then .refused .edgeAfterEnd
  else if p < 2 ^ 64 then .next { s with src.edges := s.src.edges ++ [BitVec.ofNat 64 p] }
  else .refused .positionOverflow

/-- Deliver edges one after another, up to the first that is refused. -/
def hostDeliverAll : List Nat → State → StepResult
  | [], s => .next s
  | p :: rest, s =>
    match hostDeliver p s with
    | .next t => hostDeliverAll rest t
    | other => other

/-- End the capture after the edges delivered so far (20_memory.md R61, R65). -/
def hostEndCapture (s : State) : State := { s with src.ended := true }

/-- Raise cancel; it stays raised until reset (60_exceptions.md R248). -/
def hostRaiseCancel (s : State) : State := { s with cancel := true }

end Sys2Proof.Machine
end

