-- ==== Sys2Proof/Machine/Packing.lean ====
section
/-! DEFINITION. The packed output records and their bytes (spec/30_encoding.md R102, R103, R106;
spec/20_memory.md R68). -/

namespace Sys2Proof.Machine

/-- The five words of a packed frame (30_encoding.md R102). -/
def Frame.pack (f : Frame) : List Word64 :=
  [f.startSample, f.endSample, f.data1, f.data2,
    f.frameType.code.setWidth 64 ||| (f.flags.setWidth 64 <<< 8)]

/-- The two words of a packed marker (30_encoding.md R103). -/
def Marker.pack (m : Marker) : List Word64 := [m.position, m.kind.code.setWidth 64]

/-- The frame type of a code; the reserved codes 8 to 15 have none (30_encoding.md R97, R106). -/
def FrameType.ofCode (c : BitVec 4) : Option FrameType :=
  if c = 0 then some .preamble
  else if c = 1 then some .psbit
  else if c = 2 then some .command
  else if c = 3 then some .dsbit
  else if c = 4 then some .carData
  else if c = 5 then some .checksum
  else if c = 6 then some .pebit
  else if c = 7 then some .error
  else none

/-- The marker kind of a code (30_encoding.md R101). -/
def MarkerKind.ofCode (c : BitVec 2) : MarkerKind :=
  if c = 0 then .start else if c = 1 then .stop else if c = 2 then .errorPoint else .errorSpan

/-- A consumer's reading of five words (30_encoding.md R102). R106 only says that a consumer MAY treat a
reserved code as invalid. DESIGN CHOICE, safe (log entry 21): none for a frame type 8 to 15 and for a set
spare bit of W4; a flag combination outside R98's, an error kind 0 or above 6 and a mode code 3 are read
as they stand, and `Frame.wf` is the test that refuses them. -/
def Frame.unpack : List Word64 → Option Frame
  | [w0, w1, w2, w3, w4] =>
    if w4 &&& 0xF0F = w4 then
      (FrameType.ofCode (w4.extractLsb' 0 4)).map fun t =>
        { startSample := w0, endSample := w1, frameType := t, flags := w4.extractLsb' 8 4,
          data1 := w2, data2 := w3 }
    else none
  | _ => none

/-- A consumer's reading of two words (30_encoding.md R103). DESIGN CHOICE, safe (log entry 21): none for a
set spare bit of W1. -/
def Marker.unpack : List Word64 → Option Marker
  | [w0, w1] =>
    if w1 &&& 0x3 = w1 then some ⟨w0, MarkerKind.ofCode (w1.extractLsb' 0 2)⟩ else none
  | _ => none

/-- The eight bytes of a word, least significant first (20_memory.md R68). -/
def wordBytes (w : Word64) : List Byte := (List.range 8).map fun n => w.extractLsb' (8 * n) 8

/-- The bytes of a serialised record (20_memory.md R68). -/
def recordBytes (ws : List Word64) : List Byte := ws.flatMap wordBytes

end Sys2Proof.Machine
end

