-- ==== Sys2Proof/WellFormed.lean ====
section
/-! DEFINITION. Well-formedness of instructions and of emitted frames (spec/30_encoding.md R97 to R100,
R106; spec/60_exceptions.md R241). -/

namespace Sys2Proof

open Sys2Proof.Machine

/-- Every instruction is well-formed: no row of the table has an operand field
(30_encoding.md R92, R108). -/
def Instr.wf (_ : Instr) : Bool := true

/-- The six states whose operation assembles a bit (60_exceptions.md R241). -/
def isBitState (c : Word64) : Bool :=
  c == 2 || c == 3 || c == 4 || c == 5 || c == 6 || c == 7

/-- The row of 60_exceptions.md R241 that an ERROR frame's kind, flag and detecting state make. -/
def errorFrameWf (kind : Word64) (flags : BitVec 4) (st : Word64) : Bool :=
  (kind == 1 && flags == 0b0001 && (st == 1 || st == 8)) ||
    (kind == 2 && flags == 0b0100 && st == 1) ||
    (kind == 3 && flags == 0b0100 && st == 8) ||
    (kind == 4 && flags == 0b0001 && isBitState st) ||
    (kind == 5 && flags == 0b0010 && isBitState st) ||
    (kind == 6 && flags == 0b0100 && (st == 2 || st == 4 || st == 6))

/-- The flags and payload a frame of each type may carry, in the numbers of the spec: a COMMAND frame's
mode is RACE = 2 for the byte 0x02, PROGRAM = 1 for 0x01, else UNKNOWN = 0 (30_encoding.md R96, R98, R99,
R100, R106). -/
def Machine.Frame.wf (f : Frame) : Bool :=
  match f.frameType with
  | .preamble => f.flags == 0 && decide (f.data2.toNat < 2 ^ 32) && f.data1 == f.data2 >>> 1
  | .psbit | .dsbit | .pebit => f.flags == 0 && f.data1 == 0 && f.data2 == 0
  | .command =>
    f.flags == 0 && decide (f.data1.toNat < 256) &&
      f.data2 == (if f.data1 = 2 then 2 else if f.data1 = 1 then 1 else 0)
  | .carData =>
    f.flags == 0 && decide (f.data1.toNat < 256) && decide (1 ≤ f.data2.toNat) &&
      decide (f.data2.toNat ≤ 6)
  | .checksum =>
    decide (f.data1.toNat < 256) && decide (f.data2.toNat < 256) &&
      f.flags == (if f.data1 = f.data2 then 0b0000 else 0b1000)
  | .error => errorFrameWf f.data1 f.flags f.data2

end Sys2Proof
end

