-- ==== Sys2Proof/Safety.lean ====
section
/-! DEFINITION. What counts as a safe run and as a legal state, in the terms the statements use
(spec/10_state.md R27, R30, R33, R34, R38; spec/20_memory.md R61, R74; spec/42_framer.md R164, R176 to
R178; spec/60_exceptions.md R251). -/

namespace Sys2Proof.Machine

/-- The Edge Source kept its contract so far: no EDGE_FAULT was recorded (60_exceptions.md R251,
93_implementation_defined.md U8). -/
abbrev State.Safe (s : State) : Prop := s.hcause ≠ .edgeFault

/-- The contract of the Edge Source, the premise of every claim about a run: the edges are strictly
increasing and after `CFG_START` (20_memory.md R61; 60_exceptions.md R251; 70_reset_and_hazards.md
R291). -/
abbrev EdgesIncrease (s : State) : Prop := (s.cfg.start :: s.src.edges).Pairwise (· < ·)

/-- `e` is the delivered next edge and lies after the cursor (20_memory.md R61, R62). -/
abbrev NextEdge (s : State) (e : Pos) : Prop := s.src.edges[s.k]? = some e ∧ s.cur < e

/-- `e`, `f` are the two delivered next edges and are in order (20_memory.md R61). -/
abbrev NextEdges (s : State) (e f : Pos) : Prop :=
  s.src.edges[s.k]? = some e ∧ s.src.edges[s.k + 1]? = some f ∧ s.cur < e ∧ e < f

/-- A step of the state machine happens here and nothing else can: out of reset, cancel lowered, a
valid configuration, `bidx` and `carIndex` in their ranges (10_state.md R27, R30, R50). -/
abbrev Ordinary (s : State) : Prop :=
  s.held = false ∧ s.cancel = false ∧ s.cfg.valid = true ∧ s.ctx.bidx.toNat < 8 ∧ s.ctx.carIndex ≠ 7

/-- The three byte states. -/
def isByteState (st : BitVec 4) : Bool :=
  st == St.commandByte || st == St.dataByte || st == St.checksumByte

/-- A legal state of a started block: `st` is not reserved, the configuration is valid, `bidx` is 0..7
and not 0 only inside a byte (or where a halt stopped a byte), `carIndex` is 0..6 and below the expected
count while data bytes come, and `hcause` says whether the block halted
(10_state.md R21, R27, R30, R33, R50; 42_framer.md R169). -/
abbrev Legal (s : State) : Prop :=
  (isRunning s.st = true ∨ s.st = St.halted) ∧
  s.cfg.valid = true ∧
  s.ctx.bidx.toNat < 8 ∧
  (s.ctx.bidx ≠ 0 → isByteState s.st = true ∨ s.st = St.halted) ∧
  s.ctx.carIndex.toNat ≤ 6 ∧
  (s.st = St.dataStart ∨ s.st = St.dataByte →
    s.ctx.carIndex.toNat < expectedBytes s.cfg s.ctx.mode) ∧
  (s.hcause = .none ↔ s.st ≠ St.halted)

/-- In HUNT the PacketContext is clean (10_state.md R34; 42_framer.md R161, R177). -/
abbrev CleanInHunt (s : State) : Prop := s.st = St.hunt → s.ctx = PacketContext.clear

/-- The cursor is the last consumed edge, or `CFG_START` before any (10_state.md R22, R38). -/
abbrev CursorAtLastEdge (s : State) : Prop :=
  s.k ≤ s.src.edges.length ∧
  (s.k = 0 → s.cur = s.cfg.start) ∧
  (0 < s.k → s.src.edges[s.k - 1]? = some s.cur)

/-- In PACKET_START the next edge is the delivered ZERO half-bit that PREAMBLE peeked
(42_framer.md R164; 90_conflicts.md C14). -/
def ZeroAhead (s : State) : Prop :=
  s.st = St.packetStart →
    ∃ e, NextEdge s e ∧ classify s.cfg (intervalLength s.cur e) true = .zero

/-- Every emitted frame is well-formed (30_encoding.md R98 to R100, R106). -/
abbrev FramesWellFormed (s : State) : Prop := ∀ f ∈ s.out.frames, f.wf = true

/-- The sample order of the frames (20_memory.md R74). -/
abbrev FramesInOrder (s : State) : Prop :=
  s.out.frames.Pairwise (fun f g => f.startSample ≤ g.startSample) ∧
  ∀ f ∈ s.out.frames, f.startSample ≤ f.endSample

/-- No frame starts after `p`. -/
abbrev StartsUpTo (s : State) (p : Pos) : Prop := ∀ f ∈ s.out.frames, f.startSample ≤ p

/-- What keeps the frames in order: the frames emitted start at or before the cursor, and at or before
the start of the unit or preamble in progress, which lies at or before the cursor. -/
abbrev FrameOrderInv (s : State) : Prop :=
  FramesInOrder s ∧ StartsUpTo s s.cur ∧
  (s.st = St.preamble ∨ (s.st = St.hunt ∧ s.pcnt ≠ 0) →
    StartsUpTo s s.pstart ∧ s.pstart ≤ s.cur) ∧
  (s.ctx.bidx ≠ 0 → StartsUpTo s s.ustart ∧ s.ustart ≤ s.cur)

/-- The next-state graph of 42_framer.md R176. -/
def graphEdge (a b : BitVec 4) : Bool :=
  (isRunning a && (b == St.hunt || b == St.halted)) ||
    (a == St.hunt && b == St.preamble) ||
    (a == St.preamble && (b == St.preamble || b == St.packetStart)) ||
    (a == St.packetStart && b == St.commandByte) ||
    (a == St.commandByte && (b == St.commandByte || b == St.dataStart)) ||
    (a == St.dataStart && b == St.dataByte) ||
    (a == St.dataByte && (b == St.dataByte || b == St.dataStart || b == St.checksumStart)) ||
    (a == St.checksumStart && b == St.checksumByte) ||
    (a == St.checksumByte && (b == St.checksumByte || b == St.packetEnd)) ||
    (a == St.packetEnd && b == St.gapSkip) ||
    (a == St.gapSkip && b == St.gapSkip)

/-- Two states that differ at most in what the next packet does not read: the output history, `pstart`
where no preamble is being counted, `ustart` outside a byte (42_framer.md R177; 20_memory.md R71). -/
abbrev SameDecoding (s t : State) : Prop :=
  s.st = t.st ∧ s.cur = t.cur ∧ s.k = t.k ∧ s.pcnt = t.pcnt ∧ s.ctx = t.ctx ∧
  s.hcause = t.hcause ∧ s.cfg = t.cfg ∧ s.src = t.src ∧ s.cancel = t.cancel ∧
  s.cancelDue = t.cancelDue ∧ s.held = t.held ∧ s.choice = t.choice ∧ s.policy = t.policy ∧
  (s.st = St.preamble ∨ (s.st = St.hunt ∧ s.pcnt ≠ 0) → s.pstart = t.pstart) ∧
  (s.ctx.bidx ≠ 0 → s.ustart = t.ustart)

/-- The output history after one emission of `f`: the frame, then its markers, then one commit
(20_memory.md R70). -/
def afterEmit (s : State) (f : Frame) : Output :=
  { frames := s.out.frames ++ [f]
    markers := s.out.markers ++ markersOf s.policy f
    commits := s.out.commits + 1 }

/-- The state after a decode error of kind code `kind` with flags `flags` and the span from `start` to
`stop`: the ERROR frame is emitted with the code of the state that found it, and the block is in HUNT
with every per-packet register at its reset value (42_framer.md R161; 60_exceptions.md R242, R243). -/
def afterError (s : State) (kind : Word64) (flags : BitVec 4) (start stop : Pos) : State :=
  { s with
    st := 0x0
    pcnt := 0
    ctx := { cmd := 0, mode := .unknown, carIndex := 0, cks := 0, car := #v[0, 0, 0, 0, 0, 0],
             shreg := 0, bidx := 0 }
    out := afterEmit s
      { startSample := start, endSample := stop, frameType := .error, flags := flags,
        data1 := kind, data2 := s.st.setWidth 64 } }

/-- The samples between two positions, exact (20_memory.md R66). -/
def samples (a b : Pos) : Nat := b.toNat - a.toNat

/-- The preamble counter after one more ONE (10_state.md R23). -/
def countedUp (n : BitVec 32) : Nat := min (n.toNat + 1) (2 ^ 32 - 1)

/-- How many edges an instruction needs (42_framer.md R160): none for HALTED, two in the bit states,
else one. -/
def edgesNeeded : Instr → Nat
  | .huntZero | .huntOne | .huntError
  | .preambleZero | .preambleOne | .preambleGap | .preambleError
  | .packetEndZero | .packetEndOne | .packetEndGap | .packetEndError
  | .gapSkipZero | .gapSkipOne | .gapSkipGap | .gapSkipError => 1
  | .halted => 0
  | .packetStartZero | .packetStartOne | .packetStartBitError | .packetStartFramingError
  | .commandByteZero | .commandByteOne | .commandByteBitError | .commandByteFramingError
  | .dataStartZero | .dataStartOne | .dataStartBitError | .dataStartFramingError
  | .dataByteZero | .dataByteOne | .dataByteBitError | .dataByteFramingError
  | .checksumStartZero | .checksumStartOne | .checksumStartBitError | .checksumStartFramingError
  | .checksumByteZero | .checksumByteOne | .checksumByteBitError | .checksumByteFramingError => 2

end Sys2Proof.Machine
end

