-- ==== Sys2Proof/Certificates/Slice0/Obligations.lean ====
section
/-! DEFINITION. The statements for the provers, from the numbered rules of spec/. Each docstring names
the rule and file it formalises. A statement that rests on a choice of the model's own says so and names
its log entry; none rests on the value of a free choice or on a marker policy but the spec's default. -/

open Sys2Proof Sys2Proof.Machine

/-! ## Encoding -/

/-- Every instruction decodes back from its byte, with nothing left over (30_encoding.md R92, R111). The
byte layout is the model's (log entry 9). -/
def Obligations.DecodeOfEncode : Prop :=
  ∀ i : Instr, decode (encode i) = .ok (i, []) ∧ decodeKey (encodeKey i) = .ok i

/-- A key decodes to an instruction exactly when it matches that instruction's table row, HALTED alone
ignoring its two input bits; the keys of no row are rejected by name (30_encoding.md R91, R92, R95,
R111). -/
def Obligations.DecodeIsTheTable : Prop :=
  (∀ (key : BitVec 6) (i : Instr),
    decodeKey key = .ok i ↔ key &&& (if i = .halted then 0x3C else 0x3F) = encodeKey i) ∧
  (∀ key : BitVec 6, decodeKey key = .error .reservedState ↔
    0xA ≤ (key.extractLsb' 2 4).toNat ∧ (key.extractLsb' 2 4).toNat ≤ 0xE) ∧
  (∀ key : BitVec 6, decodeKey key = .error .unreachableKey ↔ key = 0b000010)

/-- Keys written out from the spec's encodings decode to the instructions they stand for
(30_encoding.md R90, R92 to R94). -/
def Obligations.KnownKeysDecode : Prop :=
  decodeKey 0b000001 = .ok .huntOne ∧ decodeKey 0b000110 = .ok .preambleGap ∧
  decodeKey 0b001000 = .ok .packetStartZero ∧ decodeKey 0b001110 = .ok .commandByteBitError ∧
  decodeKey 0b010011 = .ok .dataStartFramingError ∧ decodeKey 0b010101 = .ok .dataByteOne ∧
  decodeKey 0b011000 = .ok .checksumStartZero ∧ decodeKey 0b011101 = .ok .checksumByteOne ∧
  decodeKey 0b100010 = .ok .packetEndGap ∧ decodeKey 0b100111 = .ok .gapSkipError ∧
  decodeKey 0b111101 = .ok .halted

/-- A packed frame is five words with its fields where R102 puts them, a packed marker two with its fields
where R103 puts them (30_encoding.md R102, R103), and the model's consumer reads the same record back. That
it reads back EVERY frame, also one with a reserved flag combination, error kind or mode that
30_encoding.md R106 leaves a consumer free to reject, is the model's choice (DESIGN CHOICE, log entry
21). -/
def Obligations.PackedRecordsReadBack : Prop :=
  (∀ f : Frame, ∃ w4 : Word64,
    f.pack = [f.startSample, f.endSample, f.data1, f.data2, w4] ∧
    w4.extractLsb' 0 4 = f.frameType.code ∧ w4.extractLsb' 8 4 = f.flags ∧
    w4 &&& 0xF0F = w4 ∧ Frame.unpack f.pack = some f) ∧
  (∀ m : Marker, ∃ w1 : Word64,
    m.pack = [m.position, w1] ∧ w1.extractLsb' 0 2 = m.kind.code ∧ w1 &&& 0x3 = w1 ∧
    Marker.unpack m.pack = some m)

/-! ## Reset and configuration -/

/-- After reset the registers, the output history and the three configuration registers with a reset
value hold the values of the table of 10_state.md R54. The other configuration registers have no reset
value there and are not mentioned (log entry 6). -/
def Obligations.ResetValues : Prop :=
  State.reset.st = 0x0 ∧ State.reset.cur = State.reset.cfg.start ∧ State.reset.k = 0 ∧
  State.reset.pcnt = 0 ∧ State.reset.pstart = 0 ∧ State.reset.ustart = 0 ∧
  State.reset.ctx = { cmd := 0, mode := .unknown, carIndex := 0, cks := 0,
                      car := #v[0, 0, 0, 0, 0, 0], shreg := 0, bidx := 0 } ∧
  State.reset.hcause = .none ∧
  State.reset.out = { frames := [], markers := [], commits := 0 } ∧
  State.reset.cfg.preambleBits = 14 ∧ State.reset.cfg.unknownBytes = 6 ∧
  State.reset.cfg.start = 0

/-- Releasing reset, from any state, gives every register its reset value and an empty output history,
keeps the configuration registers as the host last wrote them, and puts the block in HUNT at
`CFG_START` (70_reset_and_hazards.md R280, R281; 10_state.md R54). The Edge Source connected before the
release stays connected (R283, steps 4 and 5); that the edges it delivered before the release are kept is
the model's choice (DESIGN CHOICE, log entry 14). So are, by the same entry, that the reset line is a field
which the release lowers, and that the release lowers cancel, where 60_exceptions.md R248 says only that
cancel "stays raised until reset", and that a block which was not held is reset by a release as well, of
which the spec says nothing. That the counter of free choices is kept, so that a new run asks fresh
ones, is the model's choice too (DESIGN CHOICE, log entry 4). -/
def Obligations.ReleaseResetStartsHunt : Prop :=
  ∀ s : State,
    (hostReleaseReset s).st = St.hunt ∧ (hostReleaseReset s).cur = s.cfg.start ∧
    (hostReleaseReset s).k = 0 ∧ (hostReleaseReset s).pcnt = 0 ∧
    (hostReleaseReset s).pstart = 0 ∧ (hostReleaseReset s).ustart = 0 ∧
    (hostReleaseReset s).ctx = { cmd := 0, mode := .unknown, carIndex := 0, cks := 0,
                                 car := #v[0, 0, 0, 0, 0, 0], shreg := 0, bidx := 0 } ∧
    (hostReleaseReset s).hcause = .none ∧
    (hostReleaseReset s).out = { frames := [], markers := [], commits := 0 } ∧
    (hostReleaseReset s).cfg = s.cfg ∧ (hostReleaseReset s).src = s.src ∧
    (hostReleaseReset s).held = false ∧ (hostReleaseReset s).cancel = false ∧
    (hostReleaseReset s).choice = s.choice

/-- The configuration registers by number: which register each number reads, zero above its used bits; a
written register reads back its used bits, the others keep theirs, a reserved number ignores writes and
reads 0 (30_encoding.md R104). -/
def Obligations.ConfigurationRegistersByNumber : Prop :=
  ∀ (c : CfgRegs) (v : Word64),
    (c.read 0 = c.min1 ∧ c.read 1 = c.max1 ∧ c.read 2 = c.min0 ∧ c.read 3 = c.max0 ∧
      c.read 4 = c.minGap ∧ c.read 5 = c.maxGap ∧ c.read 6 = c.maxBit ∧
      c.read 7 = c.preambleBits.setWidth 64 ∧
      c.read 8 = (if c.cksumFormula = .ffCmdData then 1 else 0) ∧
      c.read 9 = c.programBytes.setWidth 64 ∧ c.read 10 = c.unknownBytes.setWidth 64 ∧
      c.read 11 = c.start) ∧
    (∀ n m : Nat, m ≠ n → (c.write n v).read m = c.read m) ∧
    (∀ n : Nat, n ≤ 6 ∨ n = 11 → (c.write n v).read n = v) ∧
    (c.write 7 v).read 7 = v &&& 0x1F ∧ (c.write 8 v).read 8 = v &&& 0x1 ∧
    (c.write 9 v).read 9 = v &&& 0x7 ∧ (c.write 10 v).read 10 = v &&& 0x7 ∧
    (∀ n : Nat, 12 ≤ n → c.write n v = c ∧ c.read n = 0)

/-- The host writes a configuration register in reset or halted, and nothing else changes; a write while
the block runs is given no meaning (10_state.md R53; 70_reset_and_hazards.md R290). -/
def Obligations.ConfigurationWriteOnlyWhenStopped : Prop :=
  ∀ (n : Nat) (v : Word64) (s : State),
    (s.held = true ∨ s.st = St.halted →
      hostWriteCfg n v s = .next { s with cfg := s.cfg.write n v }) ∧
    (s.held = false → s.st ≠ St.halted →
      hostWriteCfg n v s = .refused .configWriteWhileRunning)

/-! ## Operands, flags and emission -/

/-- Classify tests the ONE window, then the ZERO window, then under Peek the gap window, bounds
inclusive; Consume never returns GAP (40_linecode.md R120). -/
def Obligations.ClassifyByWindows : Prop :=
  ∀ (c : CfgRegs) (len : Nat) (peek : Bool),
    (classify c len peek = .one ↔ c.min1.toNat ≤ len ∧ len ≤ c.max1.toNat) ∧
    (classify c len peek = .zero ↔
      ¬ (c.min1.toNat ≤ len ∧ len ≤ c.max1.toNat) ∧ c.min0.toNat ≤ len ∧ len ≤ c.max0.toNat) ∧
    (classify c len peek = .gap ↔
      peek = true ∧ ¬ (c.min1.toNat ≤ len ∧ len ≤ c.max1.toNat) ∧
        ¬ (c.min0.toNat ≤ len ∧ len ≤ c.max0.toNat) ∧ c.minGap.toNat ≤ len ∧
        len ≤ c.maxGap.toNat) ∧
    (c.valid = true → classify c c.max1.toNat peek = .one ∧ classify c c.min0.toNat peek = .zero ∧
      classify c 0 false = .error)

/-- AssembleBit consumes both half-bits whatever they are; BIT_ERROR comes before FRAMING_ERROR, the span
test is strict, and two agreeing half-bits make the bit (41_bit_assembler.md R140, R141). -/
def Obligations.AssembleBitConsumesTwo : Prop :=
  ∀ (e f : Pos) (s : State),
    (assembleBit e f s).2 = { s with cur := f, k := s.k + 2 } ∧
    let h1 := classify s.cfg (samples s.cur e) false
    let h2 := classify s.cfg (samples e f) false
    let bad := h1 = .error ∨ h2 = .error ∨ s.cfg.maxBit.toNat < samples s.cur f
    ((assembleBit e f s).1 = .bitError ↔ bad) ∧
    ((assembleBit e f s).1 = .framingError ↔ ¬ bad ∧ h1 ≠ h2) ∧
    ((assembleBit e f s).1 = .one ↔ ¬ bad ∧ h1 = .one ∧ h2 = .one) ∧
    ((assembleBit e f s).1 = .zero ↔ ¬ bad ∧ h1 = .zero ∧ h2 = .zero)

/-- Eight ShiftIns from cleared byte registers put the first bit received in bit 7 and the last in bit 0,
and change nothing but the byte registers (41_bit_assembler.md R142; 20_memory.md R67). -/
def Obligations.EightShiftsMsbFirst : Prop :=
  ∀ (s : State) (v : BitVec 8), s.ctx.shreg = 0 → s.ctx.bidx = 0 →
    [7, 6, 5, 4, 3, 2, 1, 0].foldl (fun t i => shiftIn (v.extractLsb' i 1) t) s =
      { s with ctx.shreg := v, ctx.bidx := 8 }

/-- Emit appends the frame, then its markers, then commits once, and changes nothing else; under the
default policy an ERROR frame has a Start and a Stop marker at its two ends and no other frame has any
(20_memory.md R70, R72). -/
def Obligations.EmitIsOneAppend : Prop :=
  ∀ (f : Frame) (s : State),
    emit f s = { s with out := { frames := s.out.frames ++ [f]
                                 markers := s.out.markers ++ markersOf s.policy f
                                 commits := s.out.commits + 1 } } ∧
    (s.policy = none → f.frameType = .error → markersOf s.policy f =
      [{ position := f.startSample, kind := .start }, { position := f.endSample, kind := .stop }]) ∧
    (s.policy = none → f.frameType ≠ .error → markersOf s.policy f = [])

/-- The accumulator after the packet start bit, a command byte and any data bytes is the XOR of the data
bytes, or 0xFF, the command and the data bytes, by the configured formula
(43_checksum.md R221 to R223, R225). -/
def Obligations.ChecksumClosedForm : Prop :=
  ∀ (s : State) (c : BitVec 8) (ds : List (BitVec 8)),
    (ds.foldl (fun t d => cksFoldData d t) (cksFoldCommand c (cksInit s))).ctx.cks =
      match s.cfg.cksumFormula with
      | .xorData => ds.foldl (· ^^^ ·) 0
      | .ffCmdData => 0xFF ^^^ c ^^^ ds.foldl (· ^^^ ·) 0

/-- Changing one transmitted data byte by a non-zero mask changes the computed value by that mask, so the
check of the unchanged received byte sets CHECKSUM_ERROR and nothing else
(43_checksum.md R224, R226). -/
def Obligations.FlippedBitIsFlagged : Prop :=
  ∀ (s : State) (c d m : BitVec 8) (before after : List (BitVec 8)), m ≠ 0 →
    let computed := fun ds : List (BitVec 8) =>
      (ds.foldl (fun t x => cksFoldData x t) (cksFoldCommand c (cksInit s))).ctx.cks
    let sent := computed (before ++ d :: after)
    let got := computed (before ++ (d ^^^ m) :: after)
    got = sent ^^^ m ∧ cksCheck sent sent = 0b0000 ∧ cksCheck sent got = 0b1000

/-! ## The instructions: what exec answers -/

/-- HUNT consumes one half-bit: ONE is counted with saturation, its start kept for the first one, and
leaves for PREAMBLE at twice the configured bits; ZERO and ERROR restart the count. Nothing else changes
(42_framer.md R162). -/
def Obligations.HuntInstructions : Prop :=
  ∀ (s : State) (e : Pos), s.st = St.hunt → NextEdge s e →
    exec .huntOne s = .next
      { s with
        cur := e, k := s.k + 1
        pstart := if s.pcnt = 0 then s.cur else s.pstart
        pcnt := BitVec.ofNat 32 (countedUp s.pcnt)
        st := if 2 * s.cfg.preambleBits.toNat ≤ countedUp s.pcnt then St.preamble else St.hunt } ∧
    exec .huntZero s = .next { s with cur := e, k := s.k + 1, pcnt := 0 } ∧
    exec .huntError s = .next { s with cur := e, k := s.k + 1, pcnt := 0 }

/-- PREAMBLE.ONE consumes the half-bit and counts it; nothing else changes (42_framer.md R163). -/
def Obligations.PreambleOneCounts : Prop :=
  ∀ (s : State) (e : Pos), s.st = St.preamble → NextEdge s e →
    exec .preambleOne s = .next
      { s with cur := e, k := s.k + 1, pcnt := BitVec.ofNat 32 (countedUp s.pcnt) }

/-- PREAMBLE.ZERO emits the PREAMBLE frame and goes to PACKET_START, the ZERO unconsumed
(42_framer.md R163; 30_encoding.md R99). -/
def Obligations.PreambleZeroEmits : Prop :=
  ∀ (s : State) (e : Pos), s.st = St.preamble → NextEdge s e →
    exec .preambleZero s = .next
      { s with
        st := St.packetStart
        out := afterEmit s
          { startSample := s.pstart, endSample := s.cur, frameType := .preamble, flags := 0,
            data1 := BitVec.ofNat 64 (s.pcnt.toNat / 2)
            data2 := BitVec.ofNat 64 s.pcnt.toNat } }

/-- The errors found by Peek: GAP and ERROR in PREAMBLE span from `pstart` to the offending edge, ZERO and
ERROR in PACKET_END from the cursor to it; the offending interval is not consumed
(42_framer.md R163, R172; 60_exceptions.md R241 to R243). -/
def Obligations.PeekErrorsReturnToHunt : Prop :=
  ∀ (s : State) (e : Pos), NextEdge s e →
    (s.st = St.preamble →
      exec .preambleGap s = .next (afterError s 2 0b0100 s.pstart e) ∧
      exec .preambleError s = .next (afterError s 1 0b0001 s.pstart e)) ∧
    (s.st = St.packetEnd →
      exec .packetEndZero s = .next (afterError s 3 0b0100 s.cur e) ∧
      exec .packetEndError s = .next (afterError s 1 0b0001 s.cur e))

/-- PACKET_START.ZERO consumes the bit, emits PSBIT, clears the byte registers, starts the checksum and
goes to COMMAND_BYTE (42_framer.md R164; 43_checksum.md R221). -/
def Obligations.PacketStartZeroEmits : Prop :=
  ∀ (s : State) (e f : Pos), s.st = St.packetStart → NextEdges s e f →
    exec .packetStartZero s = .next
      { s with
        cur := f, k := s.k + 2, ustart := s.cur, st := St.commandByte
        ctx.shreg := 0, ctx.bidx := 0
        ctx.cks := match s.cfg.cksumFormula with
          | .xorData => 0x00
          | .ffCmdData => 0xFF
        out := afterEmit s
          { startSample := s.cur, endSample := f, frameType := .psbit, flags := 0, data1 := 0,
            data2 := 0 } }

/-- DATA_START.ZERO and DATA_START_FOR_CHECKSUM.ZERO consume the bit, emit DSBIT, clear the byte registers
and go to their byte state; the accumulator is not touched (42_framer.md R167, R170). -/
def Obligations.DataStartZeroEmits : Prop :=
  ∀ (s : State) (e f : Pos) (i : Instr) (target : BitVec 4),
    (i = .dataStartZero ∧ s.st = St.dataStart ∧ target = St.dataByte) ∨
      (i = .checksumStartZero ∧ s.st = St.checksumStart ∧ target = St.checksumByte) →
    NextEdges s e f →
    exec i s = .next
      { s with
        cur := f, k := s.k + 2, ustart := s.cur, st := target
        ctx.shreg := 0, ctx.bidx := 0
        out := afterEmit s
          { startSample := s.cur, endSample := f, frameType := .dsbit, flags := 0, data1 := 0,
            data2 := 0 } }

/-- ONE, BIT_ERROR and FRAMING_ERROR in the three start-bit states consume the bit and raise the error
spanning it (42_framer.md R164, R167, R170, R175). -/
def Obligations.StartBitErrorsReturnToHunt : Prop :=
  ∀ (s : State) (e f : Pos) (i : Instr) (kind : Word64) (flags : BitVec 4),
    (s.st = St.packetStart ∧ (i, kind, flags) ∈
      [(Instr.packetStartOne, 6, 0b0100), (.packetStartBitError, 4, 0b0001),
        (.packetStartFramingError, 5, 0b0010)]) ∨
    (s.st = St.dataStart ∧ (i, kind, flags) ∈
      [(Instr.dataStartOne, 6, 0b0100), (.dataStartBitError, 4, 0b0001),
        (.dataStartFramingError, 5, 0b0010)]) ∨
    (s.st = St.checksumStart ∧ (i, kind, flags) ∈
      [(Instr.checksumStartOne, 6, 0b0100), (.checksumStartBitError, 4, 0b0001),
        (.checksumStartFramingError, 5, 0b0010)]) →
    NextEdges s e f →
    exec i s = .next
      (afterError { s with cur := f, k := s.k + 2, ustart := s.cur } kind flags s.cur f)

/-- A ZERO or ONE that does not complete its byte is shifted in from the right, in all three byte states;
the start of the byte is kept at its first bit; nothing else changes
(42_framer.md R165, R168, R171; 41_bit_assembler.md R142). -/
def Obligations.ByteBitsShiftIn : Prop :=
  ∀ (s : State) (e f : Pos) (i : Instr) (b : BitVec 8),
    (s.st = St.commandByte ∧ (i, b) ∈ [(Instr.commandByteZero, 0), (.commandByteOne, 1)]) ∨
    (s.st = St.dataByte ∧ (i, b) ∈ [(Instr.dataByteZero, 0), (.dataByteOne, 1)]) ∨
    (s.st = St.checksumByte ∧ (i, b) ∈ [(Instr.checksumByteZero, 0), (.checksumByteOne, 1)]) →
    s.ctx.bidx.toNat < 7 → NextEdges s e f →
    exec i s = .next
      { s with
        cur := f, k := s.k + 2
        ustart := if s.ctx.bidx = 0 then s.cur else s.ustart
        ctx.shreg := s.ctx.shreg <<< 1 ||| b
        ctx.bidx := s.ctx.bidx + 1 }

/-- The eighth bit of COMMAND_BYTE stores the command and its mode, starts the data bytes at index 0, folds
the command where the formula has it, emits COMMAND with the byte and the mode's number (RACE 2, PROGRAM 1,
UNKNOWN 0) and goes to DATA_START (42_framer.md R165, R166; 43_checksum.md R222; 30_encoding.md R96,
R99). -/
def Obligations.CommandByteCompletes : Prop :=
  ∀ (s : State) (e f : Pos) (i : Instr) (b : BitVec 8),
    s.st = St.commandByte → (i, b) ∈ [(Instr.commandByteZero, 0), (.commandByteOne, 1)] →
    s.ctx.bidx = 7 → NextEdges s e f →
    let v : BitVec 8 := s.ctx.shreg <<< 1 ||| b
    let m : Mode := if v = 2 then .race else if v = 1 then .program else .unknown
    exec i s = .next
      { s with
        cur := f, k := s.k + 2, st := St.dataStart
        ctx := { s.ctx with
          cmd := v, mode := m, carIndex := 0, shreg := 0, bidx := 0
          cks := match s.cfg.cksumFormula with
            | .xorData => s.ctx.cks
            | .ffCmdData => s.ctx.cks ^^^ v }
        out := afterEmit s
          { startSample := s.ustart, endSample := f, frameType := .command, flags := 0,
            data1 := BitVec.ofNat 64 v.toNat
            data2 := if v = 2 then 2 else if v = 1 then 1 else 0 } }

/-- The eighth bit of DATA_BYTE stores the byte in the car buffer, folds it into the checksum, emits
CAR_DATA with the 1-based index and goes to the checksum's start bit after the expected number of bytes,
else to the next data byte's (42_framer.md R168, R169; 43_checksum.md R223). Where the buffer has no such
entry, which R169 rules out, the model faults (DESIGN CHOICE, log entry 11). -/
def Obligations.DataByteCompletes : Prop :=
  ∀ (s : State) (e f : Pos) (i : Instr) (b : BitVec 8),
    s.st = St.dataByte → (i, b) ∈ [(Instr.dataByteZero, 0), (.dataByteOne, 1)] →
    s.ctx.bidx = 7 → NextEdges s e f →
    let v : BitVec 8 := s.ctx.shreg <<< 1 ||| b
    let expected := match s.ctx.mode with
      | .race => 6
      | .program => s.cfg.programBytes.toNat
      | .unknown => s.cfg.unknownBytes.toNat
    (∀ h : s.ctx.carIndex.toNat < 6,
      exec i s = .next
        { s with
          cur := f, k := s.k + 2
          st := if s.ctx.carIndex.toNat + 1 = expected then St.checksumStart else St.dataStart
          ctx := { s.ctx with
            shreg := 0, bidx := 0, cks := s.ctx.cks ^^^ v
            carIndex := s.ctx.carIndex + 1
            car := s.ctx.car.set s.ctx.carIndex.toNat v h }
          out := afterEmit s
            { startSample := s.ustart, endSample := f, frameType := .carData, flags := 0,
              data1 := BitVec.ofNat 64 v.toNat
              data2 := BitVec.ofNat 64 (s.ctx.carIndex.toNat + 1) } }) ∧
    (6 ≤ s.ctx.carIndex.toNat → exec i s = .fault .carBufferOverrun)

/-- The eighth bit of CHECKSUM_BYTE emits CHECKSUM with the received and the computed byte, flagged exactly
when they differ, and goes to PACKET_END; the accumulator is not changed
(42_framer.md R171; 43_checksum.md R224). -/
def Obligations.ChecksumByteCompletes : Prop :=
  ∀ (s : State) (e f : Pos) (i : Instr) (b : BitVec 8),
    s.st = St.checksumByte → (i, b) ∈ [(Instr.checksumByteZero, 0), (.checksumByteOne, 1)] →
    s.ctx.bidx = 7 → NextEdges s e f →
    let r : BitVec 8 := s.ctx.shreg <<< 1 ||| b
    exec i s = .next
      { s with
        cur := f, k := s.k + 2, st := St.packetEnd
        ctx := { s.ctx with shreg := 0, bidx := 0 }
        out := afterEmit s
          { startSample := s.ustart, endSample := f, frameType := .checksum
            flags := if r = s.ctx.cks then 0b0000 else 0b1000
            data1 := BitVec.ofNat 64 r.toNat, data2 := BitVec.ofNat 64 s.ctx.cks.toNat } }

/-- BIT_ERROR and FRAMING_ERROR in the three byte states consume the bit and raise the error spanning the
byte from its first edge (42_framer.md R165, R168, R171, R175). -/
def Obligations.ByteErrorsReturnToHunt : Prop :=
  ∀ (s : State) (e f : Pos) (i : Instr) (kind : Word64) (flags : BitVec 4),
    (s.st = St.commandByte ∧ (i, kind, flags) ∈
      [(Instr.commandByteBitError, 4, 0b0001), (.commandByteFramingError, 5, 0b0010)]) ∨
    (s.st = St.dataByte ∧ (i, kind, flags) ∈
      [(Instr.dataByteBitError, 4, 0b0001), (.dataByteFramingError, 5, 0b0010)]) ∨
    (s.st = St.checksumByte ∧ (i, kind, flags) ∈
      [(Instr.checksumByteBitError, 4, 0b0001), (.checksumByteFramingError, 5, 0b0010)]) →
    NextEdges s e f →
    let u := if s.ctx.bidx = 0 then s.cur else s.ustart
    exec i s = .next
      (afterError { s with cur := f, k := s.k + 2, ustart := u } kind flags u f)

/-- PACKET_END.GAP emits PEBIT up to the peeked edge, clears the preamble count and goes to GAP_SKIP, the
gap unconsumed; the PacketContext is kept (42_framer.md R172; 10_state.md R34). -/
def Obligations.PacketEndGapEmits : Prop :=
  ∀ (s : State) (e : Pos), s.st = St.packetEnd → NextEdge s e →
    exec .packetEndGap s = .next
      { s with
        st := St.gapSkip, pcnt := 0
        out := afterEmit s
          { startSample := s.cur, endSample := e, frameType := .pebit, flags := 0, data1 := 0,
            data2 := 0 } }

/-- PACKET_END.ONE emits PEBIT, consumes the peeked ONE and returns to HUNT with a clean PacketContext, the
count at 1 and the preamble's start at the start of that ONE (42_framer.md R161, R172). -/
def Obligations.PacketEndOneCountsOnce : Prop :=
  ∀ (s : State) (e : Pos), s.st = St.packetEnd → NextEdge s e →
    exec .packetEndOne s = .next
      { s with
        st := St.hunt, pcnt := 1, pstart := s.cur, cur := e, k := s.k + 1
        ctx := { cmd := 0, mode := .unknown, carIndex := 0, cks := 0,
                 car := #v[0, 0, 0, 0, 0, 0], shreg := 0, bidx := 0 }
        out := afterEmit s
          { startSample := s.cur, endSample := e, frameType := .pebit, flags := 0, data1 := 0,
            data2 := 0 } }

/-- GAP_SKIP consumes a GAP and stays; at any other lookahead it returns to HUNT with everything clean and
leaves the interval; it emits nothing (42_framer.md R161, R173). -/
def Obligations.GapSkipInstructions : Prop :=
  ∀ (s : State) (e : Pos), s.st = St.gapSkip → NextEdge s e →
    exec .gapSkipGap s = .next { s with cur := e, k := s.k + 1 } ∧
    ∀ i ∈ [Instr.gapSkipOne, .gapSkipZero, .gapSkipError],
      exec i s = .next
        { s with
          st := St.hunt, pcnt := 0
          ctx := { cmd := 0, mode := .unknown, carIndex := 0, cks := 0,
                   car := #v[0, 0, 0, 0, 0, 0], shreg := 0, bidx := 0 } }

/-- HALTED changes nothing (42_framer.md R174). That "no step" is answered as a next state equal to the
state is the model's choice (DESIGN CHOICE, log entry 1). -/
def Obligations.HaltedChangesNothing : Prop :=
  ∀ s : State, s.st = St.halted → exec .halted s = .next s

/-- An instruction whose edges do not exist halts with EXHAUSTED, one whose edges are not delivered stays
as it is, and one whose edges are out of order halts with EDGE_FAULT; none of them does anything else
(42_framer.md R160; 60_exceptions.md R249 to R251; 20_memory.md R64). That waiting is answered as a next
state equal to the state is the model's choice (DESIGN CHOICE, log entry 1). -/
def Obligations.ExecWithoutItsEdges : Prop :=
  ∀ (i : Instr) (s : State), i ≠ .halted →
    (s.src.edges.length < s.k + edgesNeeded i →
      exec i s = .next
        (if s.src.ended then { s with st := St.halted, hcause := .exhausted } else s)) ∧
    (∀ e f : Pos, s.src.edges[s.k]? = some e → s.src.edges[s.k + edgesNeeded i - 1]? = some f →
      e ≤ s.cur ∨ (edgesNeeded i = 2 ∧ f ≤ e) →
      exec i s = .next { s with st := St.halted, hcause := .edgeFault })

/-! ## The step: each state's operation, its input included -/

/-- The HUNT step: Consume one interval and count it if it lies in the ONE window, else restart
(42_framer.md R162). -/
def Obligations.HuntStep : Prop :=
  ∀ (s : State) (e : Pos), Ordinary s → s.st = St.hunt → NextEdge s e →
    step s = .next
      (if s.cfg.min1.toNat ≤ samples s.cur e ∧ samples s.cur e ≤ s.cfg.max1.toNat then
        { s with
          cur := e, k := s.k + 1
          pstart := if s.pcnt = 0 then s.cur else s.pstart
          pcnt := BitVec.ofNat 32 (countedUp s.pcnt)
          st := if 2 * s.cfg.preambleBits.toNat ≤ countedUp s.pcnt then St.preamble
                else St.hunt }
       else { s with cur := e, k := s.k + 1, pcnt := 0 })

/-- The PREAMBLE step: Peek, and its four outcomes (42_framer.md R163). -/
def Obligations.PreambleStep : Prop :=
  ∀ (s : State) (e : Pos), Ordinary s → s.st = St.preamble → NextEdge s e →
    step s = .next
      (match classify s.cfg (samples s.cur e) true with
        | .one => { s with cur := e, k := s.k + 1, pcnt := BitVec.ofNat 32 (countedUp s.pcnt) }
        | .zero =>
          { s with
            st := St.packetStart
            out := afterEmit s
              { startSample := s.pstart, endSample := s.cur, frameType := .preamble, flags := 0,
                data1 := BitVec.ofNat 64 (s.pcnt.toNat / 2)
                data2 := BitVec.ofNat 64 s.pcnt.toNat } }
        | .gap => afterError s 2 0b0100 s.pstart e
        | .error => afterError s 1 0b0001 s.pstart e)

/-- The steps of the three start-bit states: AssembleBit, ZERO confirms, every other outcome is its error
(42_framer.md R164, R167, R170, R175). -/
def Obligations.StartBitSteps : Prop :=
  ∀ (s : State) (e f : Pos), Ordinary s →
    s.st = St.packetStart ∨ s.st = St.dataStart ∨ s.st = St.checksumStart → NextEdges s e f →
    let u := { s with cur := f, k := s.k + 2, ustart := s.cur }
    let frame (t : FrameType) : Frame :=
      { startSample := s.cur, endSample := f, frameType := t, flags := 0, data1 := 0, data2 := 0 }
    step s = .next
      (match (assembleBit e f s).1 with
        | .zero =>
          if s.st = St.packetStart then
            { u with
              st := St.commandByte, ctx.shreg := 0, ctx.bidx := 0
              ctx.cks := if s.cfg.cksumFormula = .xorData then 0x00 else 0xFF
              out := afterEmit s (frame .psbit) }
          else
            { u with
              st := if s.st = St.dataStart then St.dataByte else St.checksumByte
              ctx.shreg := 0, ctx.bidx := 0
              out := afterEmit s (frame .dsbit) }
        | .one => afterError u 6 0b0100 s.cur f
        | .bitError => afterError u 4 0b0001 s.cur f
        | .framingError => afterError u 5 0b0010 s.cur f)

/-- The COMMAND_BYTE step; the COMMAND frame's `data2` is the mode's number, RACE 2, PROGRAM 1, UNKNOWN 0
(42_framer.md R165, R166, R175; 30_encoding.md R96, R99). -/
def Obligations.CommandByteStep : Prop :=
  ∀ (s : State) (e f : Pos), Ordinary s → s.st = St.commandByte → NextEdges s e f →
    let start := if s.ctx.bidx = 0 then s.cur else s.ustart
    let u := { s with cur := f, k := s.k + 2, ustart := start }
    let take (b : BitVec 8) : State :=
      let v : BitVec 8 := s.ctx.shreg <<< 1 ||| b
      let m : Mode := if v = 2 then .race else if v = 1 then .program else .unknown
      if s.ctx.bidx = 7 then
        { u with
          st := St.dataStart
          ctx := { s.ctx with
            cmd := v, mode := m, carIndex := 0, shreg := 0, bidx := 0
            cks := if s.cfg.cksumFormula = .ffCmdData then s.ctx.cks ^^^ v else s.ctx.cks }
          out := afterEmit s
            { startSample := start, endSample := f, frameType := .command, flags := 0,
              data1 := BitVec.ofNat 64 v.toNat
              data2 := if v = 2 then 2 else if v = 1 then 1 else 0 } }
      else { u with ctx.shreg := v, ctx.bidx := s.ctx.bidx + 1 }
    step s = .next
      (match (assembleBit e f s).1 with
        | .zero => take 0
        | .one => take 1
        | .bitError => afterError u 4 0b0001 start f
        | .framingError => afterError u 5 0b0010 start f)

/-- The DATA_BYTE step, where the car buffer has an entry for the byte (42_framer.md R168, R169,
R175). -/
def Obligations.DataByteStep : Prop :=
  ∀ (s : State) (e f : Pos) (h : s.ctx.carIndex.toNat < 6),
    Ordinary s → s.st = St.dataByte → NextEdges s e f →
    let start := if s.ctx.bidx = 0 then s.cur else s.ustart
    let u := { s with cur := f, k := s.k + 2, ustart := start }
    let expected := match s.ctx.mode with
      | .race => 6
      | .program => s.cfg.programBytes.toNat
      | .unknown => s.cfg.unknownBytes.toNat
    let take (b : BitVec 8) : State :=
      let v : BitVec 8 := s.ctx.shreg <<< 1 ||| b
      if s.ctx.bidx = 7 then
        { u with
          st := if s.ctx.carIndex.toNat + 1 = expected then St.checksumStart else St.dataStart
          ctx := { s.ctx with
            shreg := 0, bidx := 0, cks := s.ctx.cks ^^^ v
            carIndex := s.ctx.carIndex + 1
            car := s.ctx.car.set s.ctx.carIndex.toNat v h }
          out := afterEmit s
            { startSample := start, endSample := f, frameType := .carData, flags := 0,
              data1 := BitVec.ofNat 64 v.toNat
              data2 := BitVec.ofNat 64 (s.ctx.carIndex.toNat + 1) } }
      else { u with ctx.shreg := v, ctx.bidx := s.ctx.bidx + 1 }
    step s = .next
      (match (assembleBit e f s).1 with
        | .zero => take 0
        | .one => take 1
        | .bitError => afterError u 4 0b0001 start f
        | .framingError => afterError u 5 0b0010 start f)

/-- The CHECKSUM_BYTE step: a mismatch is a flag, not an error (42_framer.md R171, R175;
43_checksum.md R224). -/
def Obligations.ChecksumByteStep : Prop :=
  ∀ (s : State) (e f : Pos), Ordinary s → s.st = St.checksumByte → NextEdges s e f →
    let start := if s.ctx.bidx = 0 then s.cur else s.ustart
    let u := { s with cur := f, k := s.k + 2, ustart := start }
    let take (b : BitVec 8) : State :=
      let r : BitVec 8 := s.ctx.shreg <<< 1 ||| b
      if s.ctx.bidx = 7 then
        { u with
          st := St.packetEnd, ctx.shreg := 0, ctx.bidx := 0
          out := afterEmit s
            { startSample := start, endSample := f, frameType := .checksum
              flags := if r = s.ctx.cks then 0b0000 else 0b1000
              data1 := BitVec.ofNat 64 r.toNat
              data2 := BitVec.ofNat 64 s.ctx.cks.toNat } }
      else { u with ctx.shreg := r, ctx.bidx := s.ctx.bidx + 1 }
    step s = .next
      (match (assembleBit e f s).1 with
        | .zero => take 0
        | .one => take 1
        | .bitError => afterError u 4 0b0001 start f
        | .framingError => afterError u 5 0b0010 start f)

/-- The PACKET_END and GAP_SKIP steps: Peek, and their outcomes (42_framer.md R161, R172, R173). -/
def Obligations.PacketEndAndGapSkipSteps : Prop :=
  ∀ (s : State) (e : Pos), Ordinary s → NextEdge s e →
    let clean : PacketContext :=
      { cmd := 0, mode := .unknown, carIndex := 0, cks := 0, car := #v[0, 0, 0, 0, 0, 0],
        shreg := 0, bidx := 0 }
    let pebit : Frame :=
      { startSample := s.cur, endSample := e, frameType := .pebit, flags := 0, data1 := 0,
        data2 := 0 }
    (s.st = St.packetEnd → step s = .next
      (match classify s.cfg (samples s.cur e) true with
        | .gap => { s with st := St.gapSkip, pcnt := 0, out := afterEmit s pebit }
        | .one =>
          { s with
            st := St.hunt, pcnt := 1, pstart := s.cur, cur := e, k := s.k + 1, ctx := clean
            out := afterEmit s pebit }
        | .zero => afterError s 3 0b0100 s.cur e
        | .error => afterError s 1 0b0001 s.cur e)) ∧
    (s.st = St.gapSkip → step s = .next
      (if classify s.cfg (samples s.cur e) true = .gap then { s with cur := e, k := s.k + 1 }
       else { s with st := St.hunt, pcnt := 0, ctx := clean }))

/-! ## The step: fetching, stops and cancellation -/

/-- The key a running state fetches is its code and the code of its input: Consume's symbol in HUNT,
Peek's in PREAMBLE, PACKET_END and GAP_SKIP, AssembleBit's bit in the other six
(30_encoding.md R92, R95). -/
def Obligations.KeyIsStateThenInput : Prop :=
  ∀ (s : State) (e f : Pos),
    (s.st = St.hunt → NextEdge s e →
      fetchKey s = .ready (s.st ++ (classify s.cfg (samples s.cur e) false).code)) ∧
    (s.st = St.preamble ∨ s.st = St.packetEnd ∨ s.st = St.gapSkip → NextEdge s e →
      fetchKey s = .ready (s.st ++ (classify s.cfg (samples s.cur e) true).code)) ∧
    (s.st = St.packetStart ∨ s.st = St.commandByte ∨ s.st = St.dataStart ∨ s.st = St.dataByte ∨
        s.st = St.checksumStart ∨ s.st = St.checksumByte → NextEdges s e f →
      fetchKey s = .ready (s.st ++ (assembleBit e f s).1.code))

/-- A step runs the instruction that the fetched key decodes to (42_framer.md R160; 30_encoding.md R92).
With cancel lowered the step IS exec of it. With cancel raised, and the halt neither forced nor chosen,
exec runs with the choice counter advanced and `cancelDue` records a transition: the counter is the model's
choice (DESIGN CHOICE, log entry 4) and `cancelDue` its reading of 60_exceptions.md R248 (DEDUCED, log
entry 5). In HALTED, but after an EDGE_FAULT, the step is exec of HALTED, a next state by the model's choice (DESIGN
CHOICE, log entry 1). -/
def Obligations.StepRunsTheDecodedInstruction : Prop :=
  ∀ (s : State) (key : BitVec 6) (i : Instr), s.held = false → decodeKey key = .ok i →
    (Ordinary s → isRunning s.st = true → fetchKey s = .ready key → step s = exec i s) ∧
    (isRunning s.st = true → s.cfg.valid = true → s.ctx.bidx.toNat < 8 → s.ctx.carIndex ≠ 7 →
      s.cancel = true →
      (s.ctx.bidx ≠ 0 ∨ (s.cancelDue = false ∧ Config.cancelNow s.choice = false)) →
      fetchKey { s with choice := s.choice + 1 } = .ready key →
      step s = mapNext
        (fun t => { t with
          cancelDue := t.cancelDue || (t.out.commits != s.out.commits || t.st != s.st) })
        (exec i { s with choice := s.choice + 1 })) ∧
    (s.st = St.halted → s.Safe → key.extractLsb' 2 4 = s.st → step s = exec i s)

/-- Where the block has no step: in HALTED, held in reset, or with `bidx` or `carIndex` out of range the
state stays as it is; a block that halted with EDGE_FAULT faults, so no run goes on from there; a reserved
state faults; an invalid configuration is refused (42_framer.md R174; 30_encoding.md R91; 60_exceptions.md
R251, R252; 10_state.md R27, R30). That "no step" is a next state equal to the state is the model's choice
(DESIGN CHOICE, log entry 1), and that the fault of R251 is answered by the step after the halt is its
reading (DEDUCED, log entry 3). -/
def Obligations.WhereTheBlockHasNoStep : Prop :=
  ∀ s : State,
    ((s.st = St.halted ∧ s.Safe) ∨ s.held = true → step s = .next s) ∧
    (s.held = false → s.st = St.halted → s.hcause = .edgeFault → step s = .fault .edgeFault) ∧
    (s.held = false → 0xA ≤ s.st.toNat ∧ s.st.toNat ≤ 0xE → step s = .fault .reservedState) ∧
    (s.held = false → s.st.toNat ≤ 9 → s.cfg.valid = false →
      step s = .refused .invalidConfiguration) ∧
    (s.held = false → s.st.toNat ≤ 9 → s.cfg.valid = true →
      8 ≤ s.ctx.bidx.toNat ∨ s.ctx.carIndex = 7 → step s = .next s)

/-- At a boundary where no cancellation is taken (cancel lowered, inside a byte, or the halt neither forced
nor chosen), a step whose edges do not exist halts with EXHAUSTED, one whose edges are not delivered waits,
one whose edges are out of order halts with EDGE_FAULT; exhaustion is tested before the order; nothing is
consumed and nothing is emitted (20_memory.md R64, R65; 60_exceptions.md R248, R249, R251, R253). That
waiting is a next state, equal to the state but for the counter of free choices, is the model's choice
(DESIGN CHOICE, log entries 1 and 4: with cancel raised the counter advances), and that "forced" is
`cancelDue` its reading of R248 (DEDUCED, log entry 5). -/
def Obligations.StepWithoutItsEdges : Prop :=
  ∀ s : State, s.held = false → s.st.toNat ≤ 9 → s.cfg.valid = true → s.ctx.bidx.toNat < 8 →
    s.ctx.carIndex ≠ 7 →
    s.cancel = false ∨ s.ctx.bidx ≠ 0 ∨
      (s.cancelDue = false ∧ Config.cancelNow s.choice = false) →
    let u := { s with choice := if s.cancel then s.choice + 1 else s.choice }
    let two := s.st ∈ [St.packetStart, St.commandByte, St.dataStart, St.dataByte, St.checksumStart,
      St.checksumByte]
    (s.src.edges.length ≤ s.k ∨ (two ∧ s.src.edges.length = s.k + 1) →
      step s = .next
        (if s.src.ended then { u with st := St.halted, hcause := .exhausted } else u)) ∧
    (∀ e, ¬ two → s.src.edges[s.k]? = some e → e ≤ s.cur →
      step s = .next { u with st := St.halted, hcause := .edgeFault }) ∧
    (∀ e f, two → s.src.edges[s.k]? = some e → s.src.edges[s.k + 1]? = some f →
      e ≤ s.cur ∨ f ≤ e → step s = .next { u with st := St.halted, hcause := .edgeFault })

/-- While cancel is raised, at a boundary outside a byte, the block halts with CANCELLED where the halt is
forced or the free choice takes it, before it looks at an edge; no register but `st` and `hcause` changes
(60_exceptions.md R248, R250, R253). That "forced" is the field `cancelDue` is the model's reading of R248
(DEDUCED, log entry 5), and that "chosen" is `Config.cancelNow` at the counter `choice` is the model's
choice (DESIGN CHOICE, log entry 4), as is that the halt uses up that choice; the statement holds for every
value of either. -/
def Obligations.CancellationHalts : Prop :=
  ∀ s : State, s.held = false → s.st.toNat ≤ 9 → s.cfg.valid = true → s.ctx.carIndex ≠ 7 →
    s.cancel = true → s.ctx.bidx = 0 → s.cancelDue = true ∨ Config.cancelNow s.choice = true →
    step s = .next { s with st := St.halted, hcause := .cancelled, choice := s.choice + 1 }

/-- A step that halts with CANCELLED happens only while cancel is raised, in a running state, outside a
byte, and emits and consumes nothing (60_exceptions.md R248, R250). That it uses up a free choice is the
model's choice (DESIGN CHOICE, log entry 4). -/
def Obligations.CancellationOnlyOutsideAByte : Prop :=
  ∀ s t : State, step s = .next t → s.hcause ≠ .cancelled → t.hcause = .cancelled →
    s.cancel = true ∧ s.ctx.bidx = 0 ∧ isRunning s.st = true ∧
    t = { s with st := St.halted, hcause := .cancelled, choice := s.choice + 1 }

/-- After cancel is raised, a step that emits a frame or changes `st` is followed by the halt: the very next
step halts with CANCELLED and emits nothing, so at most one further frame comes
(60_exceptions.md R248; 70_reset_and_hazards.md R295). The model remembers such a step in `cancelDue`
(DEDUCED, log entry 5), and the halt uses up a free choice (DESIGN CHOICE, log entry 4). -/
def Obligations.CancellationStopsAfterATransition : Prop :=
  ∀ s t : State, Legal s → s.held = false → s.cancel = true → step s = .next t →
    t.out.frames ≠ s.out.frames ∨ t.st ≠ s.st →
    t.st = St.halted ∨
      step t = .next { t with st := St.halted, hcause := .cancelled, choice := t.choice + 1 }

/-! ## Invariants and whole-machine rules -/

/-- Every step keeps a legal state legal: `st` never takes a reserved code, `bidx` stays 0..7 and 0 outside
a byte, `carIndex` stays 0..6 and below the expected count, `hcause` says whether the block halted
(10_state.md R21, R27, R30, R33; 42_framer.md R169). -/
def Obligations.StepKeepsLegal : Prop :=
  ∀ s t : State, Legal s → step s = .next t → Legal t

/-- From a legal state with the cursor at the last edge, on a strictly increasing edge sequence, a step always
answers a next state and records no edge fault: no signal, however malformed, makes the block fault or be
refused (60_exceptions.md R244, R251; 42_framer.md R178). That waiting is a next state is the model's choice
(DESIGN CHOICE, log entry 1). Without the premise on the edges the run can halt with EDGE_FAULT and fault
(log entry 3). -/
def Obligations.LegalStatesNeverStop : Prop :=
  ∀ s : State, Legal s → s.Safe → CursorAtLastEdge s → EdgesIncrease s →
    ∃ t, step s = .next t ∧ t.Safe ∧ EdgesIncrease t

/-- In HUNT the PacketContext is clean, whatever came before (10_state.md R34; 42_framer.md R161, R177). -/
def Obligations.StepKeepsHuntClean : Prop :=
  ∀ s t : State, CleanInHunt s → step s = .next t → CleanInHunt t

/-- The cursor is the last consumed edge, or CFG_START before any (10_state.md R22, R38). -/
def Obligations.StepKeepsCursorAtLastEdge : Prop :=
  ∀ s t : State, CursorAtLastEdge s → step s = .next t → CursorAtLastEdge t

/-- The frames stay in non-decreasing order of their starts and each ends at or after its start
(20_memory.md R74, which the spec itself derives from 42_framer.md R163 to R173). -/
def Obligations.StepKeepsFramesInOrder : Prop :=
  ∀ s t : State, Legal s → FrameOrderInv s → step s = .next t → FrameOrderInv t

/-- Every emitted frame carries the flags and payload its type allows, in the numbers of the spec: an ERROR
frame one row of the error table, a CHECKSUM frame CHECKSUM_ERROR exactly on mismatch, every other frame no
flag, a COMMAND frame the mode's number (30_encoding.md R96, R98 to R100, R106; 60_exceptions.md R241). -/
def Obligations.StepKeepsFramesWellFormed : Prop :=
  ∀ s t : State, FramesWellFormed s → step s = .next t → FramesWellFormed t

/-- In PACKET_START the first half-bit is the ZERO that PREAMBLE peeked, so the key PACKET_START.ONE is
never fetched (42_framer.md R164; 90_conflicts.md C14). -/
def Obligations.PacketStartOneIsUnreachable : Prop :=
  ∀ s t : State, ZeroAhead s → step s = .next t →
    ZeroAhead t ∧ fetchKey t ≠ .ready 0b001001

/-- The invariants hold right after reset, and no edge fault is recorded (10_state.md R54). That the configuration is valid then rests on
the model's reset values of the nine registers that have none (DESIGN CHOICE, log entry 6). -/
def Obligations.ResetMeetsTheInvariants : Prop :=
  Legal State.reset ∧ CleanInHunt State.reset ∧ CursorAtLastEdge State.reset ∧
  FrameOrderInv State.reset ∧ FramesWellFormed State.reset ∧ ZeroAhead State.reset ∧
  State.reset.Safe ∧ EdgesIncrease State.reset

/-- Every step follows an edge of the next-state graph, or changes nothing but the counter of free choices
(42_framer.md R176). The second case is the model's way to answer "no step" and waiting (DESIGN CHOICE, log
entries 1 and 4). -/
def Obligations.StepFollowsTheGraph : Prop :=
  ∀ s t : State, step s = .next t →
    graphEdge s.st t.st = true ∨ t = { s with choice := t.choice }

/-- A step only appends to the output, at most one frame with its markers and one commit; consumes at most
two edges; never moves the cursor back; and never writes the configuration, the Edge Source or the host's
inputs (10_state.md R22, R37, R53; 20_memory.md R70, R71). -/
def Obligations.StepAppendsAtMostOneFrame : Prop :=
  ∀ s t : State, step s = .next t →
    (∃ fs : List Frame, fs.length ≤ 1 ∧ t.out.frames = s.out.frames ++ fs ∧
      t.out.markers = s.out.markers ++ fs.flatMap (markersOf s.policy) ∧
      t.out.commits = s.out.commits + fs.length) ∧
    s.k ≤ t.k ∧ t.k ≤ s.k + 2 ∧ s.cur ≤ t.cur ∧
    t.cfg = s.cfg ∧ t.src = s.src ∧ t.cancel = s.cancel ∧ t.held = s.held ∧ t.policy = s.policy

/-- On a finite capture whose edges are strictly increasing the block halts: from any legal HUNT state with the
cursor at the last edge and `n` edges left it is in HALTED within `2n + 2` steps, and not by an edge fault
(42_framer.md R178; 60_exceptions.md R251; 70_reset_and_hazards.md R301). The steps left over stay in HALTED
(DESIGN CHOICE, log entry 1). -/
def Obligations.FiniteCaptureHalts : Prop :=
  ∀ s : State, Legal s → CursorAtLastEdge s → EdgesIncrease s → s.held = false →
    s.src.ended = true → s.st = St.hunt →
    ∃ t : State,
      Host.Core.run Sys2Proof.core (2 * (s.src.edges.length - s.k) + 2) s = .next t ∧
      t.st = St.halted ∧ t.Safe

/-- What the next packet does not read has no influence: two states alike but for the output history, the
`pstart` of no counted preamble and the `ustart` outside a byte take alike steps and append the same frame
(42_framer.md R177; 20_memory.md R71). -/
def Obligations.ResynchronisationForgetsThePast : Prop :=
  ∀ s u : State, SameDecoding s u →
    match step s, step u with
    | .next t, .next v =>
      SameDecoding t v ∧
        ∃ fs : List Frame, t.out.frames = s.out.frames ++ fs ∧ v.out.frames = u.out.frames ++ fs
    | .fault a, .fault b => a = b
    | .refused a, .refused b => a = b
    | _, _ => False

/-- Sixteen edges whose half-bits are the bits of `v`, most significant first, are decoded in eight steps of
COMMAND_BYTE to the byte `v`, its COMMAND frame and its mode, from the first edge to the last
(42_framer.md R165; 41_bit_assembler.md R140, R142, R143; 20_memory.md R67; 30_encoding.md R96, R99). -/
def Obligations.CommandByteReceivedMsbFirst : Prop :=
  ∀ (s : State) (v : BitVec 8) (p : Nat → Pos), Ordinary s → s.st = St.commandByte →
    s.ctx.bidx = 0 → s.ctx.shreg = 0 → p 0 = s.cur →
    (∀ n, n < 16 → s.src.edges[s.k + n]? = some (p (n + 1)) ∧ p n < p (n + 1)) →
    (∀ j, j < 8 →
      samples (p (2 * j)) (p (2 * j + 2)) ≤ s.cfg.maxBit.toNat ∧
      classify s.cfg (samples (p (2 * j)) (p (2 * j + 1))) false =
        (if v.getLsbD (7 - j) then .one else .zero) ∧
      classify s.cfg (samples (p (2 * j + 1)) (p (2 * j + 2))) false =
        (if v.getLsbD (7 - j) then .one else .zero)) →
    let m : Mode := if v = 2 then .race else if v = 1 then .program else .unknown
    Host.Core.run Sys2Proof.core 8 s = .next
      { s with
        cur := p 16, k := s.k + 16, ustart := s.cur, st := St.dataStart
        ctx := { s.ctx with
          cmd := v, mode := m, carIndex := 0
          cks := if s.cfg.cksumFormula = .ffCmdData then s.ctx.cks ^^^ v else s.ctx.cks }
        out := afterEmit s
          { startSample := s.cur, endSample := p 16, frameType := .command, flags := 0,
            data1 := BitVec.ofNat 64 v.toNat
            data2 := if v = 2 then 2 else if v = 1 then 1 else 0 } }

/-! ## The code tables and the host's port -/

/-- The codes of the half-bit symbols, the logical bits, the modes, the frame types, the marker kinds and
the halt causes are the numbers of the spec; `code[0]` of a ZERO or ONE bit is what ShiftIn shifts in, the
mode code of a command byte is 2, 1 or 0, and the frame types 8 to 15 and the mode 3 are reserved
(30_encoding.md R93, R94, R96, R97, R101, R105). -/
def Obligations.CodeTables : Prop :=
  (HalfBitSymbol.zero.code = 0b00 ∧ HalfBitSymbol.one.code = 0b01 ∧
    HalfBitSymbol.gap.code = 0b10 ∧ HalfBitSymbol.error.code = 0b11) ∧
  (LogicalBit.zero.code = 0b00 ∧ LogicalBit.one.code = 0b01 ∧
    LogicalBit.bitError.code = 0b10 ∧ LogicalBit.framingError.code = 0b11 ∧
    ∀ s : State,
      (shiftIn (LogicalBit.zero.code.extractLsb' 0 1) s).ctx.shreg = s.ctx.shreg <<< 1 ∧
      (shiftIn (LogicalBit.one.code.extractLsb' 0 1) s).ctx.shreg = s.ctx.shreg <<< 1 ||| 1) ∧
  (Mode.unknown.code = 0 ∧ Mode.program.code = 1 ∧ Mode.race.code = 2 ∧
    (∀ m : Mode, m.code ≠ 3) ∧
    ∀ v : BitVec 8, (modeOf v).code = if v = 0x02 then 2 else if v = 0x01 then 1 else 0) ∧
  (FrameType.preamble.code = 0 ∧ FrameType.psbit.code = 1 ∧ FrameType.command.code = 2 ∧
    FrameType.dsbit.code = 3 ∧ FrameType.carData.code = 4 ∧ FrameType.checksum.code = 5 ∧
    FrameType.pebit.code = 6 ∧ FrameType.error.code = 7 ∧
    ∀ t : FrameType, t.code.toNat < 8) ∧
  (MarkerKind.start.code = 0 ∧ MarkerKind.stop.code = 1 ∧ MarkerKind.errorPoint.code = 2 ∧
    MarkerKind.errorSpan.code = 3) ∧
  (HaltCause.none.code = 0 ∧ HaltCause.cancelled.code = 1 ∧ HaltCause.exhausted.code = 2 ∧
    HaltCause.edgeFault.code = 3)

/-- The host's side of the Edge Source and of the cancel and reset lines: before the end of the capture an
edge below 2^64 is appended, whether or not it is in order; one past 2^64 - 1 is refused (20_memory.md R61,
R66); ending the capture fixes the edges delivered so far as the whole of it; raising cancel raises the
level (60_exceptions.md R248). Nothing else of the state changes. The model's choices are that an edge after
the end of the capture is refused (DESIGN CHOICE, log entry 16), and that holding reset raises `held`,
disconnects the edges and lowers cancel (DESIGN CHOICE, log entry 14). -/
def Obligations.HostDeliversEndsCancelsHolds : Prop :=
  ∀ (s : State) (p : Nat),
    (s.src.ended = false → p < 2 ^ 64 →
      hostDeliver p s =
        .next { s with src := { edges := s.src.edges ++ [BitVec.ofNat 64 p], ended := false } }) ∧
    (s.src.ended = false → 2 ^ 64 ≤ p → hostDeliver p s = .refused .positionOverflow) ∧
    (s.src.ended = true → hostDeliver p s = .refused .edgeAfterEnd) ∧
    hostEndCapture s = { s with src := { edges := s.src.edges, ended := true } } ∧
    hostRaiseCancel s = { s with cancel := true } ∧
    hostHoldReset s =
      { s with
        held := true, src := { edges := [], ended := false }, cancel := false, cancelDue := false }
end

