-- ==== Sys2Proof/Laws/State.lean ====
section
/-! SUPPORT. One lemma per field per update of State, each true by `rfl` (or by the one `if` of
`markByte`), so that no later proof unfolds a record update. -/

namespace Sys2Proof.Machine

section
variable (s t : State) (e f : Pos) (a b : Pos) (v : BitVec 8) (bit : BitVec 1) (fr : Frame)
  (x : BitVec 4) (p : BitVec 32) (c : HaltCause) (kind : ErrorKind)

@[simp] theorem consume_snd : (consume e s).2 = edgePop e s := rfl
@[simp] theorem assembleBit_snd : (assembleBit e f s).2 = edgePop f (edgePop e s) := rfl

/-! `edgePop` -/

@[simp] theorem edgePop_st : (edgePop e s).st = s.st := rfl
@[simp] theorem edgePop_cur : (edgePop e s).cur = e := rfl
@[simp] theorem edgePop_k : (edgePop e s).k = s.k + 1 := rfl
@[simp] theorem edgePop_pcnt : (edgePop e s).pcnt = s.pcnt := rfl
@[simp] theorem edgePop_pstart : (edgePop e s).pstart = s.pstart := rfl
@[simp] theorem edgePop_ustart : (edgePop e s).ustart = s.ustart := rfl
@[simp] theorem edgePop_ctx : (edgePop e s).ctx = s.ctx := rfl
@[simp] theorem edgePop_hcause : (edgePop e s).hcause = s.hcause := rfl
@[simp] theorem edgePop_cfg : (edgePop e s).cfg = s.cfg := rfl
@[simp] theorem edgePop_out : (edgePop e s).out = s.out := rfl
@[simp] theorem edgePop_src : (edgePop e s).src = s.src := rfl
@[simp] theorem edgePop_cancel : (edgePop e s).cancel = s.cancel := rfl
@[simp] theorem edgePop_cancelDue : (edgePop e s).cancelDue = s.cancelDue := rfl
@[simp] theorem edgePop_held : (edgePop e s).held = s.held := rfl
@[simp] theorem edgePop_choice : (edgePop e s).choice = s.choice := rfl
@[simp] theorem edgePop_policy : (edgePop e s).policy = s.policy := rfl

/-! `clearByte` -/

@[simp] theorem clearByte_st : (clearByte s).st = s.st := rfl
@[simp] theorem clearByte_cur : (clearByte s).cur = s.cur := rfl
@[simp] theorem clearByte_k : (clearByte s).k = s.k := rfl
@[simp] theorem clearByte_pcnt : (clearByte s).pcnt = s.pcnt := rfl
@[simp] theorem clearByte_pstart : (clearByte s).pstart = s.pstart := rfl
@[simp] theorem clearByte_ustart : (clearByte s).ustart = s.ustart := rfl
@[simp] theorem clearByte_cmd : (clearByte s).ctx.cmd = s.ctx.cmd := rfl
@[simp] theorem clearByte_mode : (clearByte s).ctx.mode = s.ctx.mode := rfl
@[simp] theorem clearByte_carIndex : (clearByte s).ctx.carIndex = s.ctx.carIndex := rfl
@[simp] theorem clearByte_cks : (clearByte s).ctx.cks = s.ctx.cks := rfl
@[simp] theorem clearByte_car : (clearByte s).ctx.car = s.ctx.car := rfl
@[simp] theorem clearByte_shreg : (clearByte s).ctx.shreg = 0 := rfl
@[simp] theorem clearByte_bidx : (clearByte s).ctx.bidx = 0 := rfl
@[simp] theorem clearByte_hcause : (clearByte s).hcause = s.hcause := rfl
@[simp] theorem clearByte_cfg : (clearByte s).cfg = s.cfg := rfl
@[simp] theorem clearByte_out : (clearByte s).out = s.out := rfl
@[simp] theorem clearByte_src : (clearByte s).src = s.src := rfl
@[simp] theorem clearByte_cancel : (clearByte s).cancel = s.cancel := rfl
@[simp] theorem clearByte_cancelDue : (clearByte s).cancelDue = s.cancelDue := rfl
@[simp] theorem clearByte_held : (clearByte s).held = s.held := rfl
@[simp] theorem clearByte_choice : (clearByte s).choice = s.choice := rfl
@[simp] theorem clearByte_policy : (clearByte s).policy = s.policy := rfl

/-! `shiftIn` -/

@[simp] theorem shiftIn_st : (shiftIn bit s).st = s.st := rfl
@[simp] theorem shiftIn_cur : (shiftIn bit s).cur = s.cur := rfl
@[simp] theorem shiftIn_k : (shiftIn bit s).k = s.k := rfl
@[simp] theorem shiftIn_pcnt : (shiftIn bit s).pcnt = s.pcnt := rfl
@[simp] theorem shiftIn_pstart : (shiftIn bit s).pstart = s.pstart := rfl
@[simp] theorem shiftIn_ustart : (shiftIn bit s).ustart = s.ustart := rfl
@[simp] theorem shiftIn_cmd : (shiftIn bit s).ctx.cmd = s.ctx.cmd := rfl
@[simp] theorem shiftIn_mode : (shiftIn bit s).ctx.mode = s.ctx.mode := rfl
@[simp] theorem shiftIn_carIndex : (shiftIn bit s).ctx.carIndex = s.ctx.carIndex := rfl
@[simp] theorem shiftIn_cks : (shiftIn bit s).ctx.cks = s.ctx.cks := rfl
@[simp] theorem shiftIn_car : (shiftIn bit s).ctx.car = s.ctx.car := rfl
@[simp] theorem shiftIn_shreg : (shiftIn bit s).ctx.shreg = (s.ctx.shreg <<< 1) ||| bit.setWidth 8 := rfl
@[simp] theorem shiftIn_bidx : (shiftIn bit s).ctx.bidx = s.ctx.bidx + 1 := rfl
@[simp] theorem shiftIn_hcause : (shiftIn bit s).hcause = s.hcause := rfl
@[simp] theorem shiftIn_cfg : (shiftIn bit s).cfg = s.cfg := rfl
@[simp] theorem shiftIn_out : (shiftIn bit s).out = s.out := rfl
@[simp] theorem shiftIn_src : (shiftIn bit s).src = s.src := rfl
@[simp] theorem shiftIn_cancel : (shiftIn bit s).cancel = s.cancel := rfl
@[simp] theorem shiftIn_cancelDue : (shiftIn bit s).cancelDue = s.cancelDue := rfl
@[simp] theorem shiftIn_held : (shiftIn bit s).held = s.held := rfl
@[simp] theorem shiftIn_choice : (shiftIn bit s).choice = s.choice := rfl
@[simp] theorem shiftIn_policy : (shiftIn bit s).policy = s.policy := rfl

/-! `cksInit` -/

@[simp] theorem cksInit_st : (cksInit s).st = s.st := rfl
@[simp] theorem cksInit_cur : (cksInit s).cur = s.cur := rfl
@[simp] theorem cksInit_k : (cksInit s).k = s.k := rfl
@[simp] theorem cksInit_pcnt : (cksInit s).pcnt = s.pcnt := rfl
@[simp] theorem cksInit_pstart : (cksInit s).pstart = s.pstart := rfl
@[simp] theorem cksInit_ustart : (cksInit s).ustart = s.ustart := rfl
@[simp] theorem cksInit_cmd : (cksInit s).ctx.cmd = s.ctx.cmd := rfl
@[simp] theorem cksInit_mode : (cksInit s).ctx.mode = s.ctx.mode := rfl
@[simp] theorem cksInit_carIndex : (cksInit s).ctx.carIndex = s.ctx.carIndex := rfl
@[simp] theorem cksInit_cks : (cksInit s).ctx.cks = cksInitial s.cfg.cksumFormula := rfl
@[simp] theorem cksInit_car : (cksInit s).ctx.car = s.ctx.car := rfl
@[simp] theorem cksInit_shreg : (cksInit s).ctx.shreg = s.ctx.shreg := rfl
@[simp] theorem cksInit_bidx : (cksInit s).ctx.bidx = s.ctx.bidx := rfl
@[simp] theorem cksInit_hcause : (cksInit s).hcause = s.hcause := rfl
@[simp] theorem cksInit_cfg : (cksInit s).cfg = s.cfg := rfl
@[simp] theorem cksInit_out : (cksInit s).out = s.out := rfl
@[simp] theorem cksInit_src : (cksInit s).src = s.src := rfl
@[simp] theorem cksInit_cancel : (cksInit s).cancel = s.cancel := rfl
@[simp] theorem cksInit_cancelDue : (cksInit s).cancelDue = s.cancelDue := rfl
@[simp] theorem cksInit_held : (cksInit s).held = s.held := rfl
@[simp] theorem cksInit_choice : (cksInit s).choice = s.choice := rfl
@[simp] theorem cksInit_policy : (cksInit s).policy = s.policy := rfl

/-! `cksFoldCommand` -/

@[simp] theorem cksFoldCommand_st : (cksFoldCommand v s).st = s.st := rfl
@[simp] theorem cksFoldCommand_cur : (cksFoldCommand v s).cur = s.cur := rfl
@[simp] theorem cksFoldCommand_k : (cksFoldCommand v s).k = s.k := rfl
@[simp] theorem cksFoldCommand_pcnt : (cksFoldCommand v s).pcnt = s.pcnt := rfl
@[simp] theorem cksFoldCommand_pstart : (cksFoldCommand v s).pstart = s.pstart := rfl
@[simp] theorem cksFoldCommand_ustart : (cksFoldCommand v s).ustart = s.ustart := rfl
@[simp] theorem cksFoldCommand_cmd : (cksFoldCommand v s).ctx.cmd = s.ctx.cmd := rfl
@[simp] theorem cksFoldCommand_mode : (cksFoldCommand v s).ctx.mode = s.ctx.mode := rfl
@[simp] theorem cksFoldCommand_carIndex : (cksFoldCommand v s).ctx.carIndex = s.ctx.carIndex := rfl
@[simp] theorem cksFoldCommand_cks : (cksFoldCommand v s).ctx.cks = foldCommand s.cfg.cksumFormula s.ctx.cks v := rfl
@[simp] theorem cksFoldCommand_car : (cksFoldCommand v s).ctx.car = s.ctx.car := rfl
@[simp] theorem cksFoldCommand_shreg : (cksFoldCommand v s).ctx.shreg = s.ctx.shreg := rfl
@[simp] theorem cksFoldCommand_bidx : (cksFoldCommand v s).ctx.bidx = s.ctx.bidx := rfl
@[simp] theorem cksFoldCommand_hcause : (cksFoldCommand v s).hcause = s.hcause := rfl
@[simp] theorem cksFoldCommand_cfg : (cksFoldCommand v s).cfg = s.cfg := rfl
@[simp] theorem cksFoldCommand_out : (cksFoldCommand v s).out = s.out := rfl
@[simp] theorem cksFoldCommand_src : (cksFoldCommand v s).src = s.src := rfl
@[simp] theorem cksFoldCommand_cancel : (cksFoldCommand v s).cancel = s.cancel := rfl
@[simp] theorem cksFoldCommand_cancelDue : (cksFoldCommand v s).cancelDue = s.cancelDue := rfl
@[simp] theorem cksFoldCommand_held : (cksFoldCommand v s).held = s.held := rfl
@[simp] theorem cksFoldCommand_choice : (cksFoldCommand v s).choice = s.choice := rfl
@[simp] theorem cksFoldCommand_policy : (cksFoldCommand v s).policy = s.policy := rfl

/-! `cksFoldData` -/

@[simp] theorem cksFoldData_st : (cksFoldData v s).st = s.st := rfl
@[simp] theorem cksFoldData_cur : (cksFoldData v s).cur = s.cur := rfl
@[simp] theorem cksFoldData_k : (cksFoldData v s).k = s.k := rfl
@[simp] theorem cksFoldData_pcnt : (cksFoldData v s).pcnt = s.pcnt := rfl
@[simp] theorem cksFoldData_pstart : (cksFoldData v s).pstart = s.pstart := rfl
@[simp] theorem cksFoldData_ustart : (cksFoldData v s).ustart = s.ustart := rfl
@[simp] theorem cksFoldData_cmd : (cksFoldData v s).ctx.cmd = s.ctx.cmd := rfl
@[simp] theorem cksFoldData_mode : (cksFoldData v s).ctx.mode = s.ctx.mode := rfl
@[simp] theorem cksFoldData_carIndex : (cksFoldData v s).ctx.carIndex = s.ctx.carIndex := rfl
@[simp] theorem cksFoldData_cks : (cksFoldData v s).ctx.cks = foldData s.ctx.cks v := rfl
@[simp] theorem cksFoldData_car : (cksFoldData v s).ctx.car = s.ctx.car := rfl
@[simp] theorem cksFoldData_shreg : (cksFoldData v s).ctx.shreg = s.ctx.shreg := rfl
@[simp] theorem cksFoldData_bidx : (cksFoldData v s).ctx.bidx = s.ctx.bidx := rfl
@[simp] theorem cksFoldData_hcause : (cksFoldData v s).hcause = s.hcause := rfl
@[simp] theorem cksFoldData_cfg : (cksFoldData v s).cfg = s.cfg := rfl
@[simp] theorem cksFoldData_out : (cksFoldData v s).out = s.out := rfl
@[simp] theorem cksFoldData_src : (cksFoldData v s).src = s.src := rfl
@[simp] theorem cksFoldData_cancel : (cksFoldData v s).cancel = s.cancel := rfl
@[simp] theorem cksFoldData_cancelDue : (cksFoldData v s).cancelDue = s.cancelDue := rfl
@[simp] theorem cksFoldData_held : (cksFoldData v s).held = s.held := rfl
@[simp] theorem cksFoldData_choice : (cksFoldData v s).choice = s.choice := rfl
@[simp] theorem cksFoldData_policy : (cksFoldData v s).policy = s.policy := rfl

/-! `storeCar` -/

@[simp] theorem storeCar_st : (storeCar v s).st = s.st := rfl
@[simp] theorem storeCar_cur : (storeCar v s).cur = s.cur := rfl
@[simp] theorem storeCar_k : (storeCar v s).k = s.k := rfl
@[simp] theorem storeCar_pcnt : (storeCar v s).pcnt = s.pcnt := rfl
@[simp] theorem storeCar_pstart : (storeCar v s).pstart = s.pstart := rfl
@[simp] theorem storeCar_ustart : (storeCar v s).ustart = s.ustart := rfl
@[simp] theorem storeCar_cmd : (storeCar v s).ctx.cmd = s.ctx.cmd := rfl
@[simp] theorem storeCar_mode : (storeCar v s).ctx.mode = s.ctx.mode := rfl
@[simp] theorem storeCar_carIndex : (storeCar v s).ctx.carIndex = s.ctx.carIndex := rfl
@[simp] theorem storeCar_cks : (storeCar v s).ctx.cks = s.ctx.cks := rfl
@[simp] theorem storeCar_car : (storeCar v s).ctx.car = s.ctx.car.setIfInBounds s.ctx.carIndex.toNat v := rfl
@[simp] theorem storeCar_shreg : (storeCar v s).ctx.shreg = s.ctx.shreg := rfl
@[simp] theorem storeCar_bidx : (storeCar v s).ctx.bidx = s.ctx.bidx := rfl
@[simp] theorem storeCar_hcause : (storeCar v s).hcause = s.hcause := rfl
@[simp] theorem storeCar_cfg : (storeCar v s).cfg = s.cfg := rfl
@[simp] theorem storeCar_out : (storeCar v s).out = s.out := rfl
@[simp] theorem storeCar_src : (storeCar v s).src = s.src := rfl
@[simp] theorem storeCar_cancel : (storeCar v s).cancel = s.cancel := rfl
@[simp] theorem storeCar_cancelDue : (storeCar v s).cancelDue = s.cancelDue := rfl
@[simp] theorem storeCar_held : (storeCar v s).held = s.held := rfl
@[simp] theorem storeCar_choice : (storeCar v s).choice = s.choice := rfl
@[simp] theorem storeCar_policy : (storeCar v s).policy = s.policy := rfl

/-! `nextCar` -/

@[simp] theorem nextCar_st : (nextCar s).st =
    if (s.ctx.carIndex + 1).toNat = expectedBytes s.cfg s.ctx.mode then St.checksumStart else St.dataStart := rfl
@[simp] theorem nextCar_cur : (nextCar s).cur = s.cur := rfl
@[simp] theorem nextCar_k : (nextCar s).k = s.k := rfl
@[simp] theorem nextCar_pcnt : (nextCar s).pcnt = s.pcnt := rfl
@[simp] theorem nextCar_pstart : (nextCar s).pstart = s.pstart := rfl
@[simp] theorem nextCar_ustart : (nextCar s).ustart = s.ustart := rfl
@[simp] theorem nextCar_cmd : (nextCar s).ctx.cmd = s.ctx.cmd := rfl
@[simp] theorem nextCar_mode : (nextCar s).ctx.mode = s.ctx.mode := rfl
@[simp] theorem nextCar_carIndex : (nextCar s).ctx.carIndex = s.ctx.carIndex + 1 := rfl
@[simp] theorem nextCar_cks : (nextCar s).ctx.cks = s.ctx.cks := rfl
@[simp] theorem nextCar_car : (nextCar s).ctx.car = s.ctx.car := rfl
@[simp] theorem nextCar_shreg : (nextCar s).ctx.shreg = s.ctx.shreg := rfl
@[simp] theorem nextCar_bidx : (nextCar s).ctx.bidx = s.ctx.bidx := rfl
@[simp] theorem nextCar_hcause : (nextCar s).hcause = s.hcause := rfl
@[simp] theorem nextCar_cfg : (nextCar s).cfg = s.cfg := rfl
@[simp] theorem nextCar_out : (nextCar s).out = s.out := rfl
@[simp] theorem nextCar_src : (nextCar s).src = s.src := rfl
@[simp] theorem nextCar_cancel : (nextCar s).cancel = s.cancel := rfl
@[simp] theorem nextCar_cancelDue : (nextCar s).cancelDue = s.cancelDue := rfl
@[simp] theorem nextCar_held : (nextCar s).held = s.held := rfl
@[simp] theorem nextCar_choice : (nextCar s).choice = s.choice := rfl
@[simp] theorem nextCar_policy : (nextCar s).policy = s.policy := rfl

/-! `emit` -/

@[simp] theorem emit_st : (emit fr s).st = s.st := rfl
@[simp] theorem emit_cur : (emit fr s).cur = s.cur := rfl
@[simp] theorem emit_k : (emit fr s).k = s.k := rfl
@[simp] theorem emit_pcnt : (emit fr s).pcnt = s.pcnt := rfl
@[simp] theorem emit_pstart : (emit fr s).pstart = s.pstart := rfl
@[simp] theorem emit_ustart : (emit fr s).ustart = s.ustart := rfl
@[simp] theorem emit_ctx : (emit fr s).ctx = s.ctx := rfl
@[simp] theorem emit_hcause : (emit fr s).hcause = s.hcause := rfl
@[simp] theorem emit_cfg : (emit fr s).cfg = s.cfg := rfl
@[simp] theorem emit_out : (emit fr s).out =
    { frames := s.out.frames ++ [fr], markers := s.out.markers ++ markersOf s.policy fr, commits := s.out.commits + 1 } := rfl
@[simp] theorem emit_src : (emit fr s).src = s.src := rfl
@[simp] theorem emit_cancel : (emit fr s).cancel = s.cancel := rfl
@[simp] theorem emit_cancelDue : (emit fr s).cancelDue = s.cancelDue := rfl
@[simp] theorem emit_held : (emit fr s).held = s.held := rfl
@[simp] theorem emit_choice : (emit fr s).choice = s.choice := rfl
@[simp] theorem emit_policy : (emit fr s).policy = s.policy := rfl

/-! `goto` -/

@[simp] theorem goto_st : (goto x s).st = x := rfl
@[simp] theorem goto_cur : (goto x s).cur = s.cur := rfl
@[simp] theorem goto_k : (goto x s).k = s.k := rfl
@[simp] theorem goto_pcnt : (goto x s).pcnt = s.pcnt := rfl
@[simp] theorem goto_pstart : (goto x s).pstart = s.pstart := rfl
@[simp] theorem goto_ustart : (goto x s).ustart = s.ustart := rfl
@[simp] theorem goto_ctx : (goto x s).ctx = s.ctx := rfl
@[simp] theorem goto_hcause : (goto x s).hcause = s.hcause := rfl
@[simp] theorem goto_cfg : (goto x s).cfg = s.cfg := rfl
@[simp] theorem goto_out : (goto x s).out = s.out := rfl
@[simp] theorem goto_src : (goto x s).src = s.src := rfl
@[simp] theorem goto_cancel : (goto x s).cancel = s.cancel := rfl
@[simp] theorem goto_cancelDue : (goto x s).cancelDue = s.cancelDue := rfl
@[simp] theorem goto_held : (goto x s).held = s.held := rfl
@[simp] theorem goto_choice : (goto x s).choice = s.choice := rfl
@[simp] theorem goto_policy : (goto x s).policy = s.policy := rfl

/-! `toHunt` -/

@[simp] theorem toHunt_st : (toHunt p s).st = St.hunt := rfl
@[simp] theorem toHunt_cur : (toHunt p s).cur = s.cur := rfl
@[simp] theorem toHunt_k : (toHunt p s).k = s.k := rfl
@[simp] theorem toHunt_pcnt : (toHunt p s).pcnt = p := rfl
@[simp] theorem toHunt_pstart : (toHunt p s).pstart = s.pstart := rfl
@[simp] theorem toHunt_ustart : (toHunt p s).ustart = s.ustart := rfl
@[simp] theorem toHunt_ctx : (toHunt p s).ctx = PacketContext.clear := rfl
@[simp] theorem toHunt_hcause : (toHunt p s).hcause = s.hcause := rfl
@[simp] theorem toHunt_cfg : (toHunt p s).cfg = s.cfg := rfl
@[simp] theorem toHunt_out : (toHunt p s).out = s.out := rfl
@[simp] theorem toHunt_src : (toHunt p s).src = s.src := rfl
@[simp] theorem toHunt_cancel : (toHunt p s).cancel = s.cancel := rfl
@[simp] theorem toHunt_cancelDue : (toHunt p s).cancelDue = s.cancelDue := rfl
@[simp] theorem toHunt_held : (toHunt p s).held = s.held := rfl
@[simp] theorem toHunt_choice : (toHunt p s).choice = s.choice := rfl
@[simp] theorem toHunt_policy : (toHunt p s).policy = s.policy := rfl

/-! `raiseError` -/

@[simp] theorem raiseError_st : (raiseError kind a b s).st = St.hunt := rfl
@[simp] theorem raiseError_cur : (raiseError kind a b s).cur = s.cur := rfl
@[simp] theorem raiseError_k : (raiseError kind a b s).k = s.k := rfl
@[simp] theorem raiseError_pcnt : (raiseError kind a b s).pcnt = 0 := rfl
@[simp] theorem raiseError_pstart : (raiseError kind a b s).pstart = s.pstart := rfl
@[simp] theorem raiseError_ustart : (raiseError kind a b s).ustart = s.ustart := rfl
@[simp] theorem raiseError_ctx : (raiseError kind a b s).ctx = PacketContext.clear := rfl
@[simp] theorem raiseError_hcause : (raiseError kind a b s).hcause = s.hcause := rfl
@[simp] theorem raiseError_cfg : (raiseError kind a b s).cfg = s.cfg := rfl
@[simp] theorem raiseError_out : (raiseError kind a b s).out =
    (emit (errorFrame s.st kind a b) s).out := rfl
@[simp] theorem raiseError_src : (raiseError kind a b s).src = s.src := rfl
@[simp] theorem raiseError_cancel : (raiseError kind a b s).cancel = s.cancel := rfl
@[simp] theorem raiseError_cancelDue : (raiseError kind a b s).cancelDue = s.cancelDue := rfl
@[simp] theorem raiseError_held : (raiseError kind a b s).held = s.held := rfl
@[simp] theorem raiseError_choice : (raiseError kind a b s).choice = s.choice := rfl
@[simp] theorem raiseError_policy : (raiseError kind a b s).policy = s.policy := rfl

/-! `bitFail` -/

@[simp] theorem bitFail_st : (bitFail kind s).st = St.hunt := rfl
@[simp] theorem bitFail_cur : (bitFail kind s).cur = s.cur := rfl
@[simp] theorem bitFail_k : (bitFail kind s).k = s.k := rfl
@[simp] theorem bitFail_pcnt : (bitFail kind s).pcnt = 0 := rfl
@[simp] theorem bitFail_pstart : (bitFail kind s).pstart = s.pstart := rfl
@[simp] theorem bitFail_ustart : (bitFail kind s).ustart = s.ustart := rfl
@[simp] theorem bitFail_ctx : (bitFail kind s).ctx = PacketContext.clear := rfl
@[simp] theorem bitFail_hcause : (bitFail kind s).hcause = s.hcause := rfl
@[simp] theorem bitFail_cfg : (bitFail kind s).cfg = s.cfg := rfl
@[simp] theorem bitFail_out : (bitFail kind s).out =
    (emit (errorFrame s.st kind s.ustart s.cur) s).out := rfl
@[simp] theorem bitFail_src : (bitFail kind s).src = s.src := rfl
@[simp] theorem bitFail_cancel : (bitFail kind s).cancel = s.cancel := rfl
@[simp] theorem bitFail_cancelDue : (bitFail kind s).cancelDue = s.cancelDue := rfl
@[simp] theorem bitFail_held : (bitFail kind s).held = s.held := rfl
@[simp] theorem bitFail_choice : (bitFail kind s).choice = s.choice := rfl
@[simp] theorem bitFail_policy : (bitFail kind s).policy = s.policy := rfl

/-! `halt` -/

@[simp] theorem halt_st : (halt c s).st = St.halted := rfl
@[simp] theorem halt_cur : (halt c s).cur = s.cur := rfl
@[simp] theorem halt_k : (halt c s).k = s.k := rfl
@[simp] theorem halt_pcnt : (halt c s).pcnt = s.pcnt := rfl
@[simp] theorem halt_pstart : (halt c s).pstart = s.pstart := rfl
@[simp] theorem halt_ustart : (halt c s).ustart = s.ustart := rfl
@[simp] theorem halt_ctx : (halt c s).ctx = s.ctx := rfl
@[simp] theorem halt_hcause : (halt c s).hcause = c := rfl
@[simp] theorem halt_cfg : (halt c s).cfg = s.cfg := rfl
@[simp] theorem halt_out : (halt c s).out = s.out := rfl
@[simp] theorem halt_src : (halt c s).src = s.src := rfl
@[simp] theorem halt_cancel : (halt c s).cancel = s.cancel := rfl
@[simp] theorem halt_cancelDue : (halt c s).cancelDue = s.cancelDue := rfl
@[simp] theorem halt_held : (halt c s).held = s.held := rfl
@[simp] theorem halt_choice : (halt c s).choice = s.choice := rfl
@[simp] theorem halt_policy : (halt c s).policy = s.policy := rfl

/-! `markUnit` -/

@[simp] theorem markUnit_st : (markUnit s).st = s.st := rfl
@[simp] theorem markUnit_cur : (markUnit s).cur = s.cur := rfl
@[simp] theorem markUnit_k : (markUnit s).k = s.k := rfl
@[simp] theorem markUnit_pcnt : (markUnit s).pcnt = s.pcnt := rfl
@[simp] theorem markUnit_pstart : (markUnit s).pstart = s.pstart := rfl
@[simp] theorem markUnit_ustart : (markUnit s).ustart = s.cur := rfl
@[simp] theorem markUnit_ctx : (markUnit s).ctx = s.ctx := rfl
@[simp] theorem markUnit_hcause : (markUnit s).hcause = s.hcause := rfl
@[simp] theorem markUnit_cfg : (markUnit s).cfg = s.cfg := rfl
@[simp] theorem markUnit_out : (markUnit s).out = s.out := rfl
@[simp] theorem markUnit_src : (markUnit s).src = s.src := rfl
@[simp] theorem markUnit_cancel : (markUnit s).cancel = s.cancel := rfl
@[simp] theorem markUnit_cancelDue : (markUnit s).cancelDue = s.cancelDue := rfl
@[simp] theorem markUnit_held : (markUnit s).held = s.held := rfl
@[simp] theorem markUnit_choice : (markUnit s).choice = s.choice := rfl
@[simp] theorem markUnit_policy : (markUnit s).policy = s.policy := rfl

/-! `markByte` -/

@[simp] theorem markByte_st : (markByte s).st = s.st := by unfold markByte; split <;> rfl
@[simp] theorem markByte_cur : (markByte s).cur = s.cur := by unfold markByte; split <;> rfl
@[simp] theorem markByte_k : (markByte s).k = s.k := by unfold markByte; split <;> rfl
@[simp] theorem markByte_pcnt : (markByte s).pcnt = s.pcnt := by unfold markByte; split <;> rfl
@[simp] theorem markByte_pstart : (markByte s).pstart = s.pstart := by unfold markByte; split <;> rfl
@[simp] theorem markByte_ustart : (markByte s).ustart =
    if s.ctx.bidx = 0 then s.cur else s.ustart := by unfold markByte; split <;> rfl
@[simp] theorem markByte_ctx : (markByte s).ctx = s.ctx := by unfold markByte; split <;> rfl
@[simp] theorem markByte_hcause : (markByte s).hcause = s.hcause := by unfold markByte; split <;> rfl
@[simp] theorem markByte_cfg : (markByte s).cfg = s.cfg := by unfold markByte; split <;> rfl
@[simp] theorem markByte_out : (markByte s).out = s.out := by unfold markByte; split <;> rfl
@[simp] theorem markByte_src : (markByte s).src = s.src := by unfold markByte; split <;> rfl
@[simp] theorem markByte_cancel : (markByte s).cancel = s.cancel := by unfold markByte; split <;> rfl
@[simp] theorem markByte_cancelDue : (markByte s).cancelDue = s.cancelDue := by unfold markByte; split <;> rfl
@[simp] theorem markByte_held : (markByte s).held = s.held := by unfold markByte; split <;> rfl
@[simp] theorem markByte_choice : (markByte s).choice = s.choice := by unfold markByte; split <;> rfl
@[simp] theorem markByte_policy : (markByte s).policy = s.policy := by unfold markByte; split <;> rfl

/-! `countPreamble` -/

@[simp] theorem countPreamble_st : (countPreamble a s).st =
    if 2 * s.cfg.preambleBits.toNat ≤ (countOne s.pcnt).toNat then St.preamble else s.st := rfl
@[simp] theorem countPreamble_cur : (countPreamble a s).cur = s.cur := rfl
@[simp] theorem countPreamble_k : (countPreamble a s).k = s.k := rfl
@[simp] theorem countPreamble_pcnt : (countPreamble a s).pcnt = countOne s.pcnt := rfl
@[simp] theorem countPreamble_pstart : (countPreamble a s).pstart =
    if s.pcnt = 0 then a else s.pstart := rfl
@[simp] theorem countPreamble_ustart : (countPreamble a s).ustart = s.ustart := rfl
@[simp] theorem countPreamble_ctx : (countPreamble a s).ctx = s.ctx := rfl
@[simp] theorem countPreamble_hcause : (countPreamble a s).hcause = s.hcause := rfl
@[simp] theorem countPreamble_cfg : (countPreamble a s).cfg = s.cfg := rfl
@[simp] theorem countPreamble_out : (countPreamble a s).out = s.out := rfl
@[simp] theorem countPreamble_src : (countPreamble a s).src = s.src := rfl
@[simp] theorem countPreamble_cancel : (countPreamble a s).cancel = s.cancel := rfl
@[simp] theorem countPreamble_cancelDue : (countPreamble a s).cancelDue = s.cancelDue := rfl
@[simp] theorem countPreamble_held : (countPreamble a s).held = s.held := rfl
@[simp] theorem countPreamble_choice : (countPreamble a s).choice = s.choice := rfl
@[simp] theorem countPreamble_policy : (countPreamble a s).policy = s.policy := rfl

/-! `restartCount` -/

@[simp] theorem restartCount_st : (restartCount s).st = s.st := rfl
@[simp] theorem restartCount_cur : (restartCount s).cur = s.cur := rfl
@[simp] theorem restartCount_k : (restartCount s).k = s.k := rfl
@[simp] theorem restartCount_pcnt : (restartCount s).pcnt = 0 := rfl
@[simp] theorem restartCount_pstart : (restartCount s).pstart = s.pstart := rfl
@[simp] theorem restartCount_ustart : (restartCount s).ustart = s.ustart := rfl
@[simp] theorem restartCount_ctx : (restartCount s).ctx = s.ctx := rfl
@[simp] theorem restartCount_hcause : (restartCount s).hcause = s.hcause := rfl
@[simp] theorem restartCount_cfg : (restartCount s).cfg = s.cfg := rfl
@[simp] theorem restartCount_out : (restartCount s).out = s.out := rfl
@[simp] theorem restartCount_src : (restartCount s).src = s.src := rfl
@[simp] theorem restartCount_cancel : (restartCount s).cancel = s.cancel := rfl
@[simp] theorem restartCount_cancelDue : (restartCount s).cancelDue = s.cancelDue := rfl
@[simp] theorem restartCount_held : (restartCount s).held = s.held := rfl
@[simp] theorem restartCount_choice : (restartCount s).choice = s.choice := rfl
@[simp] theorem restartCount_policy : (restartCount s).policy = s.policy := rfl

/-! `nextChoice` -/

@[simp] theorem nextChoice_st : (nextChoice s).st = s.st := rfl
@[simp] theorem nextChoice_cur : (nextChoice s).cur = s.cur := rfl
@[simp] theorem nextChoice_k : (nextChoice s).k = s.k := rfl
@[simp] theorem nextChoice_pcnt : (nextChoice s).pcnt = s.pcnt := rfl
@[simp] theorem nextChoice_pstart : (nextChoice s).pstart = s.pstart := rfl
@[simp] theorem nextChoice_ustart : (nextChoice s).ustart = s.ustart := rfl
@[simp] theorem nextChoice_ctx : (nextChoice s).ctx = s.ctx := rfl
@[simp] theorem nextChoice_hcause : (nextChoice s).hcause = s.hcause := rfl
@[simp] theorem nextChoice_cfg : (nextChoice s).cfg = s.cfg := rfl
@[simp] theorem nextChoice_out : (nextChoice s).out = s.out := rfl
@[simp] theorem nextChoice_src : (nextChoice s).src = s.src := rfl
@[simp] theorem nextChoice_cancel : (nextChoice s).cancel = s.cancel := rfl
@[simp] theorem nextChoice_cancelDue : (nextChoice s).cancelDue = s.cancelDue := rfl
@[simp] theorem nextChoice_held : (nextChoice s).held = s.held := rfl
@[simp] theorem nextChoice_choice : (nextChoice s).choice =
    if s.cancel then s.choice + 1 else s.choice := rfl
@[simp] theorem nextChoice_policy : (nextChoice s).policy = s.policy := rfl

/-! `noteTransition` -/

@[simp] theorem noteTransition_st : (noteTransition s t).st = t.st := rfl
@[simp] theorem noteTransition_cur : (noteTransition s t).cur = t.cur := rfl
@[simp] theorem noteTransition_k : (noteTransition s t).k = t.k := rfl
@[simp] theorem noteTransition_pcnt : (noteTransition s t).pcnt = t.pcnt := rfl
@[simp] theorem noteTransition_pstart : (noteTransition s t).pstart = t.pstart := rfl
@[simp] theorem noteTransition_ustart : (noteTransition s t).ustart = t.ustart := rfl
@[simp] theorem noteTransition_ctx : (noteTransition s t).ctx = t.ctx := rfl
@[simp] theorem noteTransition_hcause : (noteTransition s t).hcause = t.hcause := rfl
@[simp] theorem noteTransition_cfg : (noteTransition s t).cfg = t.cfg := rfl
@[simp] theorem noteTransition_out : (noteTransition s t).out = t.out := rfl
@[simp] theorem noteTransition_src : (noteTransition s t).src = t.src := rfl
@[simp] theorem noteTransition_cancel : (noteTransition s t).cancel = t.cancel := rfl
@[simp] theorem noteTransition_cancelDue : (noteTransition s t).cancelDue =
    (t.cancelDue || (s.cancel && (t.out.commits != s.out.commits || t.st != s.st))) := rfl
@[simp] theorem noteTransition_held : (noteTransition s t).held = t.held := rfl
@[simp] theorem noteTransition_choice : (noteTransition s t).choice = t.choice := rfl
@[simp] theorem noteTransition_policy : (noteTransition s t).policy = t.policy := rfl

/-! `hostHoldReset` -/

@[simp] theorem hostHoldReset_st : (hostHoldReset s).st = s.st := rfl
@[simp] theorem hostHoldReset_cur : (hostHoldReset s).cur = s.cur := rfl
@[simp] theorem hostHoldReset_k : (hostHoldReset s).k = s.k := rfl
@[simp] theorem hostHoldReset_pcnt : (hostHoldReset s).pcnt = s.pcnt := rfl
@[simp] theorem hostHoldReset_pstart : (hostHoldReset s).pstart = s.pstart := rfl
@[simp] theorem hostHoldReset_ustart : (hostHoldReset s).ustart = s.ustart := rfl
@[simp] theorem hostHoldReset_ctx : (hostHoldReset s).ctx = s.ctx := rfl
@[simp] theorem hostHoldReset_hcause : (hostHoldReset s).hcause = s.hcause := rfl
@[simp] theorem hostHoldReset_cfg : (hostHoldReset s).cfg = s.cfg := rfl
@[simp] theorem hostHoldReset_out : (hostHoldReset s).out = s.out := rfl
@[simp] theorem hostHoldReset_src : (hostHoldReset s).src = EdgeSource.empty := rfl
@[simp] theorem hostHoldReset_cancel : (hostHoldReset s).cancel = false := rfl
@[simp] theorem hostHoldReset_cancelDue : (hostHoldReset s).cancelDue = false := rfl
@[simp] theorem hostHoldReset_held : (hostHoldReset s).held = true := rfl
@[simp] theorem hostHoldReset_choice : (hostHoldReset s).choice = s.choice := rfl
@[simp] theorem hostHoldReset_policy : (hostHoldReset s).policy = s.policy := rfl

/-! `hostReleaseReset` -/

@[simp] theorem hostReleaseReset_st : (hostReleaseReset s).st = St.hunt := rfl
@[simp] theorem hostReleaseReset_cur : (hostReleaseReset s).cur = s.cfg.start := rfl
@[simp] theorem hostReleaseReset_k : (hostReleaseReset s).k = 0 := rfl
@[simp] theorem hostReleaseReset_pcnt : (hostReleaseReset s).pcnt = 0 := rfl
@[simp] theorem hostReleaseReset_pstart : (hostReleaseReset s).pstart = 0 := rfl
@[simp] theorem hostReleaseReset_ustart : (hostReleaseReset s).ustart = 0 := rfl
@[simp] theorem hostReleaseReset_ctx : (hostReleaseReset s).ctx = PacketContext.clear := rfl
@[simp] theorem hostReleaseReset_hcause : (hostReleaseReset s).hcause = HaltCause.none := rfl
@[simp] theorem hostReleaseReset_cfg : (hostReleaseReset s).cfg = s.cfg := rfl
@[simp] theorem hostReleaseReset_out : (hostReleaseReset s).out = Output.empty := rfl
@[simp] theorem hostReleaseReset_src : (hostReleaseReset s).src = s.src := rfl
@[simp] theorem hostReleaseReset_cancel : (hostReleaseReset s).cancel = false := rfl
@[simp] theorem hostReleaseReset_cancelDue : (hostReleaseReset s).cancelDue = false := rfl
@[simp] theorem hostReleaseReset_held : (hostReleaseReset s).held = false := rfl
@[simp] theorem hostReleaseReset_choice : (hostReleaseReset s).choice = s.choice := rfl
@[simp] theorem hostReleaseReset_policy : (hostReleaseReset s).policy = s.policy := rfl

/-! `hostEndCapture` -/

@[simp] theorem hostEndCapture_st : (hostEndCapture s).st = s.st := rfl
@[simp] theorem hostEndCapture_cur : (hostEndCapture s).cur = s.cur := rfl
@[simp] theorem hostEndCapture_k : (hostEndCapture s).k = s.k := rfl
@[simp] theorem hostEndCapture_pcnt : (hostEndCapture s).pcnt = s.pcnt := rfl
@[simp] theorem hostEndCapture_pstart : (hostEndCapture s).pstart = s.pstart := rfl
@[simp] theorem hostEndCapture_ustart : (hostEndCapture s).ustart = s.ustart := rfl
@[simp] theorem hostEndCapture_ctx : (hostEndCapture s).ctx = s.ctx := rfl
@[simp] theorem hostEndCapture_hcause : (hostEndCapture s).hcause = s.hcause := rfl
@[simp] theorem hostEndCapture_cfg : (hostEndCapture s).cfg = s.cfg := rfl
@[simp] theorem hostEndCapture_out : (hostEndCapture s).out = s.out := rfl
@[simp] theorem hostEndCapture_src : (hostEndCapture s).src = { s.src with ended := true } := rfl
@[simp] theorem hostEndCapture_cancel : (hostEndCapture s).cancel = s.cancel := rfl
@[simp] theorem hostEndCapture_cancelDue : (hostEndCapture s).cancelDue = s.cancelDue := rfl
@[simp] theorem hostEndCapture_held : (hostEndCapture s).held = s.held := rfl
@[simp] theorem hostEndCapture_choice : (hostEndCapture s).choice = s.choice := rfl
@[simp] theorem hostEndCapture_policy : (hostEndCapture s).policy = s.policy := rfl

/-! `hostRaiseCancel` -/

@[simp] theorem hostRaiseCancel_st : (hostRaiseCancel s).st = s.st := rfl
@[simp] theorem hostRaiseCancel_cur : (hostRaiseCancel s).cur = s.cur := rfl
@[simp] theorem hostRaiseCancel_k : (hostRaiseCancel s).k = s.k := rfl
@[simp] theorem hostRaiseCancel_pcnt : (hostRaiseCancel s).pcnt = s.pcnt := rfl
@[simp] theorem hostRaiseCancel_pstart : (hostRaiseCancel s).pstart = s.pstart := rfl
@[simp] theorem hostRaiseCancel_ustart : (hostRaiseCancel s).ustart = s.ustart := rfl
@[simp] theorem hostRaiseCancel_ctx : (hostRaiseCancel s).ctx = s.ctx := rfl
@[simp] theorem hostRaiseCancel_hcause : (hostRaiseCancel s).hcause = s.hcause := rfl
@[simp] theorem hostRaiseCancel_cfg : (hostRaiseCancel s).cfg = s.cfg := rfl
@[simp] theorem hostRaiseCancel_out : (hostRaiseCancel s).out = s.out := rfl
@[simp] theorem hostRaiseCancel_src : (hostRaiseCancel s).src = s.src := rfl
@[simp] theorem hostRaiseCancel_cancel : (hostRaiseCancel s).cancel = true := rfl
@[simp] theorem hostRaiseCancel_cancelDue : (hostRaiseCancel s).cancelDue = s.cancelDue := rfl
@[simp] theorem hostRaiseCancel_held : (hostRaiseCancel s).held = s.held := rfl
@[simp] theorem hostRaiseCancel_choice : (hostRaiseCancel s).choice = s.choice := rfl
@[simp] theorem hostRaiseCancel_policy : (hostRaiseCancel s).policy = s.policy := rfl

end

end Sys2Proof.Machine
end

