-- ==== Sys2Proof/Machine/Stimulus.lean ====
section
/-! DEFINITION. The stimulus notation: what a "program" is for this block (spec/30_encoding.md R109,
R110). Abstract statements; the line syntax and comments are not modelled. -/

namespace Sys2Proof.Machine

/-- A stimulus statement or pseudo-statement (30_encoding.md R109, R110). -/
inductive StimStmt where
  /-- `h L x c`; `h L` is `h L x 1`. -/
  | h (len count : Nat)
  /-- `nominal T1 T0`, for the statements after it. -/
  | nominal (t1 t0 : Nat)
  | b1
  | b0
  | bad (l1 l2 : Nat)
  | byte (v : BitVec 8)
  | pre (n : Nat)
  | gap (len : Nat)
  /-- `packet cmd, d_1, ..., d_n, c`. -/
  | packet (cmd : BitVec 8) (data : List (BitVec 8)) (cks : BitVec 8)
  deriving DecidableEq, Repr

/-- A stimulus: `start n` where it has one, the statements, and whether it closes with `end`
(30_encoding.md R109). -/
structure Stimulus where
  start : Option Nat := none
  stmts : List StimStmt
  ended : Bool
  deriving DecidableEq, Repr

/-- The two intervals of a well-formed bit (30_encoding.md R110 `b1`, `b0`). -/
def bitIntervals (t1 t0 : Nat) (b : Bool) : List Nat := if b then [t1, t1] else [t0, t0]

/-- `byte v`: the eight bits, bit 7 first (30_encoding.md R110). -/
def byteIntervals (t1 t0 : Nat) (v : BitVec 8) : List Nat :=
  [7, 6, 5, 4, 3, 2, 1, 0].flatMap fun i => bitIntervals t1 t0 (v.getLsbD i)

/-- `pre n` (30_encoding.md R110). -/
def preIntervals (t1 t0 n : Nat) : List Nat :=
  (List.replicate n true).flatMap (bitIntervals t1 t0)

/-- The intervals of one statement; `bits` is CFG_PREAMBLE_BITS (30_encoding.md R109, R110). -/
def stmtIntervals (bits t1 t0 : Nat) : StimStmt → List Nat
  | .h len count => List.replicate count len
  | .nominal _ _ => []
  | .b1 => bitIntervals t1 t0 true
  | .b0 => bitIntervals t1 t0 false
  | .bad l1 l2 => [l1, l2]
  | .byte v => byteIntervals t1 t0 v
  | .pre n => preIntervals t1 t0 n
  | .gap len => [len]
  | .packet cmd data cks =>
    preIntervals t1 t0 bits ++ bitIntervals t1 t0 false ++ byteIntervals t1 t0 cmd ++
      data.flatMap (fun d => bitIntervals t1 t0 false ++ byteIntervals t1 t0 d) ++
      bitIntervals t1 t0 false ++ byteIntervals t1 t0 cks

/-- The intervals of a list of statements, `nominal` applied from where it stands. -/
def stimIntervals (bits : Nat) : Nat → Nat → List StimStmt → List Nat
  | _, _, [] => []
  | _, _, .nominal t1 t0 :: rest => stimIntervals bits t1 t0 rest
  | t1, t0, x :: rest => stmtIntervals bits t1 t0 x ++ stimIntervals bits t1 t0 rest

/-- The edges of a list of intervals after the position `prev` (30_encoding.md R109 `h L`). -/
def edgesFrom (prev : Nat) : List Nat → List Nat
  | [] => []
  | len :: rest => (prev + len) :: edgesFrom (prev + len) rest

/-- Where the stimulus starts: absent, `start 0` (30_encoding.md R109). -/
def Stimulus.startAt (x : Stimulus) : Nat := x.start.getD 0

/-- The encoding of a stimulus: its edge list, positions exact in `Nat` (30_encoding.md R109; 20_memory.md
R66). -/
def Stimulus.edges (bits : Nat) (x : Stimulus) : List Nat :=
  edgesFrom x.startAt (stimIntervals bits 0 0 x.stmts)

/-- The block after the host runs the boot order with a stimulus (70_reset_and_hazards.md R283): reset held
and released with the configuration `c` and `CFG_START = n`, the edges delivered, the capture ended at `end`. A
stimulus with a position past 2^64 - 1 is refused, positions do not wrap (20_memory.md R66,
93_implementation_defined.md U7). -/
def Stimulus.load (c : CfgRegs) (x : Stimulus) : StepResult :=
  if x.startAt < 2 ^ 64 then
    mapNext (fun t => if x.ended then hostEndCapture t else t)
      (hostDeliverAll (x.edges c.preambleBits.toNat)
        (hostReleaseReset
          { hostHoldReset State.reset with cfg := { c with start := BitVec.ofNat 64 x.startAt } }))
  else .refused .positionOverflow

end Sys2Proof.Machine
end

