-- ==== Sys2Proof/Laws/Ops.lean ====
section
/-! SUPPORT. What each shared operation can do, said once: the Edge Source port, the common beginning of
a step, byte assembly, the error entry, the outcomes of the two step shapes and the host's deliveries. -/

namespace Sys2Proof.Machine

/-! The Edge Source port. -/

theorem edgeAt_ready (s : State) (j : Nat) (e : Pos) :
    edgeAt s j = .ready e ↔ s.src.edges[j]? = some e := by
  unfold edgeAt
  cases h : s.src.edges[j]? with
  | none => cases s.src.ended <;> simp
  | some x => simp

theorem edgeAt_none (s : State) (j : Nat) (h : s.src.edges[j]? = none) :
    edgeAt s j = if s.src.ended then .exhausted else .waiting := by simp [edgeAt, h]

theorem supplyOne_ready (s : State) (e : Pos) : supplyOne s = .ready e ↔ NextEdge s e := by
  unfold supplyOne NextEdge
  cases h : s.src.edges[s.k]? with
  | none => rw [edgeAt_none s _ h]; cases s.src.ended <;> simp
  | some x =>
    rw [(edgeAt_ready s s.k x).2 h]
    by_cases hx : s.cur < x
    · simp only [hx, if_true, Supply.ready.injEq, Option.some.injEq]
      exact ⟨fun h => ⟨h, h ▸ hx⟩, fun h => h.1⟩
    · simp only [hx, if_false, Option.some.injEq]
      exact ⟨nofun, fun h => absurd (h.1 ▸ h.2) hx⟩

theorem supplyOne_of_none (s : State) (h : s.src.edges[s.k]? = none) :
    supplyOne s = if s.src.ended then .exhausted else .waiting := by
  unfold supplyOne
  rw [edgeAt_none s _ h]
  cases s.src.ended <;> rfl

theorem supplyOne_of_late (s : State) (e : Pos) (h : s.src.edges[s.k]? = some e)
    (hc : ¬ s.cur < e) : supplyOne s = .edgeFault := by
  unfold supplyOne
  rw [(edgeAt_ready s s.k e).2 h]
  simp only [hc, if_false]

theorem supplyTwo_of_some (s : State) (e f : Pos) (h1 : s.src.edges[s.k]? = some e)
    (h2 : s.src.edges[s.k + 1]? = some f) :
    supplyTwo s = if s.cur < e ∧ e < f then .ready (e, f) else .edgeFault := by
  unfold supplyTwo
  rw [(edgeAt_ready s s.k e).2 h1, (edgeAt_ready s (s.k + 1) f).2 h2]

theorem supplyTwo_of_none (s : State) (h : s.src.edges[s.k + 1]? = none) :
    supplyTwo s = if s.src.ended then .exhausted else .waiting := by
  unfold supplyTwo
  rw [edgeAt_none s (s.k + 1) h]
  cases s.src.ended <;> cases edgeAt s s.k <;> rfl

theorem supplyTwo_ready (s : State) (e f : Pos) :
    supplyTwo s = .ready (e, f) ↔ NextEdges s e f := by
  unfold NextEdges
  cases h2 : s.src.edges[s.k + 1]? with
  | none => rw [supplyTwo_of_none s h2]; cases s.src.ended <;> simp
  | some y =>
    cases h1 : s.src.edges[s.k]? with
    | none =>
      rw [List.getElem?_eq_none_iff] at h1
      rw [List.getElem?_eq_none (by omega)] at h2
      cases h2
    | some x =>
      rw [supplyTwo_of_some s x y h1 h2]
      by_cases hx : s.cur < x ∧ x < y
      · simp only [hx, and_self, if_true, Supply.ready.injEq, Prod.mk.injEq, Option.some.injEq]
        constructor
        · rintro ⟨rfl, rfl⟩; exact ⟨rfl, rfl, hx⟩
        · rintro ⟨rfl, rfl, -⟩; exact ⟨rfl, rfl⟩
      · simp only [hx, if_false, Option.some.injEq]
        constructor
        · intro h; cases h
        · rintro ⟨rfl, rfl, h⟩; exact absurd h hx

/-- Everything the common beginning of a step can do. -/
theorem whenReady_next {α : Type} {need : Supply α} {s t : State} {run : α → StepResult}
    (h : whenReady need s run = .next t) :
    (∃ a, need = .ready a ∧ run a = .next t) ∨ (need = .exhausted ∧ t = halt .exhausted s) ∨
      (need = .waiting ∧ t = s) ∨ (need = .edgeFault ∧ t = halt .edgeFault s) := by
  cases need with
  | ready a => exact .inl ⟨a, rfl, h⟩
  | exhausted => exact .inr (.inl ⟨rfl, by cases h; rfl⟩)
  | waiting => exact .inr (.inr (.inl ⟨rfl, by cases h; rfl⟩))
  | edgeFault => exact .inr (.inr (.inr ⟨rfl, by cases h; rfl⟩))

/-- A one-edge operation on a state whose next edge is ready runs. -/
theorem whenReady_one {s : State} {e : Pos} (h : NextEdge s e) (run : Pos → StepResult) :
    whenReady (supplyOne s) s run = run e := by
  rw [(supplyOne_ready s e).2 h]; rfl

/-- A two-edge operation on a state whose next two edges are ready runs. -/
theorem whenReady_two {s : State} {e f : Pos} (h : NextEdges s e f)
    (run : Pos × Pos → StepResult) : whenReady (supplyTwo s) s run = run (e, f) := by
  rw [(supplyTwo_ready s e f).2 h]; rfl

/-- The start-bit shape on two ready edges. -/
theorem startBitStep_ready {s : State} {e f : Pos} (h : NextEdges s e f) (done : State → State) :
    startBitStep done s = .next (done { s with ustart := s.cur, cur := f, k := s.k + 2 }) := by
  unfold startBitStep; rw [whenReady_two h]; rfl

/-- The byte shape on two ready edges. -/
theorem byteBitStep_ready {s : State} {e f : Pos} (h : NextEdges s e f)
    (done : State → StepResult) :
    byteBitStep done s = done
      { s with ustart := if s.ctx.bidx = 0 then s.cur else s.ustart, cur := f, k := s.k + 2 } := by
  unfold byteBitStep
  rw [whenReady_two h]
  simp only [assembleBit_snd]
  unfold markByte
  split <;> rfl

/-- A bit that does not complete its byte only enters the shift register. -/
theorem takeBit_mid {s : State} (h : s.ctx.bidx.toNat < 7) (b : BitVec 1)
    (complete : BitVec 8 → State → StepResult) : takeBit b complete s = .next (shiftIn b s) := by
  unfold takeBit byteDone
  have : (s.ctx.bidx + 1 == 8) = false := by
    rw [beq_eq_false_iff_ne]
    intro h8
    have := congrArg BitVec.toNat h8
    simp [BitVec.toNat_add] at this
    omega
  simp only [shiftIn_bidx, this, Bool.false_eq_true, if_false]

/-- The eighth bit completes the byte: the byte registers are cleared before the byte is acted on. -/
theorem takeBit_last {s : State} (h : s.ctx.bidx = 7) (b : BitVec 1)
    (complete : BitVec 8 → State → StepResult) :
    takeBit b complete s =
      complete ((s.ctx.shreg <<< 1) ||| b.setWidth 8)
        { s with ctx.shreg := 0, ctx.bidx := 0 } := by
  unfold takeBit byteDone
  simp only [shiftIn_bidx, h, shiftIn_shreg]
  rfl

/-- The saturating count as a minimum (10_state.md R23). -/
theorem countOne_toNat (n : BitVec 32) : (countOne n).toNat = min (n.toNat + 1) (2 ^ 32 - 1) := by
  unfold countOne
  have := n.isLt
  split
  · rename_i h; subst h; rfl
  · rename_i h
    have hn : n.toNat ≠ 2 ^ 32 - 1 := fun hn => h (BitVec.eq_of_toNat_eq (by simpa using hn))
    rw [BitVec.toNat_add]
    simp
    omega

/-! The halves of `mapNext`. -/

theorem mapNext_next {f : State → State} {o : StepResult} {t : State}
    (h : mapNext f o = .next t) : ∃ s, o = .next s ∧ t = f s := by
  cases o with
  | next s => exact ⟨s, rfl, by cases h; rfl⟩
  | fault r => cases h
  | refused r => cases h

/-- With cancel lowered, a step's transition is noted by changing nothing. -/
theorem noteTransition_of_cancel_false {s : State} (h : s.cancel = false) (t : State) :
    noteTransition s t = t := by
  unfold noteTransition; simp [h]

/-- With cancel lowered, no free choice is used. -/
theorem nextChoice_of_cancel_false {s : State} (h : s.cancel = false) : nextChoice s = s := by
  unfold nextChoice; rw [if_neg (by simp [h])]

/-- With cancel lowered, no cancellation is taken. -/
theorem cancelTaken_of_cancel_false {s : State} (h : s.cancel = false) : cancelTaken s = false := by
  unfold cancelTaken; simp [h]

/-! The host's deliveries. -/

/-- A delivery before the end of the capture appends the position, or is refused past 2^64 - 1. -/
theorem hostDeliver_eq (p : Nat) (s : State) (h : s.src.ended = false) :
    hostDeliver p s =
      if p < 2 ^ 64 then .next { s with src.edges := s.src.edges ++ [BitVec.ofNat 64 p] }
      else .refused .positionOverflow := by
  rw [hostDeliver, if_neg (by rw [h]; decide)]

/-- Delivering a list before the end of the capture appends every position, or is refused where one is
past 2^64 - 1. -/
theorem hostDeliverAll_eq (ps : List Nat) (s : State) (h : s.src.ended = false) :
    hostDeliverAll ps s =
      if ∀ p ∈ ps, p < 2 ^ 64 then
        .next { s with src.edges := s.src.edges ++ ps.map (BitVec.ofNat 64) }
      else .refused .positionOverflow := by
  induction ps generalizing s with
  | nil => rw [if_pos nofun, List.map_nil, List.append_nil]; rfl
  | cons p ps ih =>
    rw [hostDeliverAll, hostDeliver_eq p s h]
    by_cases hp : p < 2 ^ 64
    · rw [if_pos hp]
      dsimp only
      rw [ih { s with src.edges := s.src.edges ++ [BitVec.ofNat 64 p] } h]
      simp only [List.forall_mem_cons, hp, true_and, List.append_assoc, List.map_cons,
        List.singleton_append]
    · rw [if_neg hp, if_neg fun hall => hp (hall p List.mem_cons_self)]

/-- A stimulus loads where its start and all its edges are below 2^64: the block is in HUNT at its start
with its edges delivered. Else it is refused. -/
theorem load_eq (c : CfgRegs) (x : Stimulus) :
    Stimulus.load c x =
      if x.startAt < 2 ^ 64 ∧ ∀ p ∈ x.edges c.preambleBits.toNat, p < 2 ^ 64 then
        .next { State.reset with
                cur := BitVec.ofNat 64 x.startAt
                cfg := { c with start := BitVec.ofNat 64 x.startAt }
                src := { edges := (x.edges c.preambleBits.toNat).map (BitVec.ofNat 64)
                         ended := x.ended } }
      else .refused .positionOverflow := by
  unfold Stimulus.load
  rw [hostDeliverAll_eq _ _ rfl]
  generalize x.edges c.preambleBits.toNat = ps
  by_cases hs : x.startAt < 2 ^ 64
  · rw [if_pos hs]
    by_cases hp : ∀ p ∈ ps, p < 2 ^ 64
    · rw [if_pos hp, if_pos ⟨hs, hp⟩, mapNext]
      cases h : x.ended <;> rfl
    · rw [if_neg hp, if_neg fun hall => hp hall.2, mapNext]
  · rw [if_neg hs, if_neg fun hall => hs hall.1]

end Sys2Proof.Machine
end

