-- ==== Sys2Proof/Laws/PerInstr.lean ====
section
/-! SUPPORT. The lemmas for every instruction as syntax (LAWS.json): what its encoding looks like. -/

open Sys2Proof Sys2Proof.Machine

/-- The instruction's encoding is one byte; the state code of its key is not a reserved one, is 0xF for
HALTED alone, and says how many edges the instruction needs (30_encoding.md R90 to R92;
42_framer.md R160). -/
def Sys2Proof.Laws.EncodingShape.Statement (i : Instr) : Prop :=
  i.wf = true ∧ (encode i).length = 1 ∧
    (((encodeKey i).extractLsb' 2 4).toNat ≤ 9 ∨ (encodeKey i).extractLsb' 2 4 = St.halted) ∧
    ((encodeKey i).extractLsb' 2 4 = St.halted ↔ i = .halted) ∧
    (needsTwoEdges ((encodeKey i).extractLsb' 2 4) = true ↔ edgesNeeded i = 2)

theorem Sys2Proof.Laws.EncodingShape.huntZero :
    Sys2Proof.Laws.EncodingShape.Statement .huntZero := by
  unfold Sys2Proof.Laws.EncodingShape.Statement
  decide

theorem Sys2Proof.Laws.EncodingShape.huntOne :
    Sys2Proof.Laws.EncodingShape.Statement .huntOne := by
  unfold Sys2Proof.Laws.EncodingShape.Statement
  decide

theorem Sys2Proof.Laws.EncodingShape.huntError :
    Sys2Proof.Laws.EncodingShape.Statement .huntError := by
  unfold Sys2Proof.Laws.EncodingShape.Statement
  decide

theorem Sys2Proof.Laws.EncodingShape.preambleZero :
    Sys2Proof.Laws.EncodingShape.Statement .preambleZero := by
  unfold Sys2Proof.Laws.EncodingShape.Statement
  decide

theorem Sys2Proof.Laws.EncodingShape.preambleOne :
    Sys2Proof.Laws.EncodingShape.Statement .preambleOne := by
  unfold Sys2Proof.Laws.EncodingShape.Statement
  decide

theorem Sys2Proof.Laws.EncodingShape.preambleGap :
    Sys2Proof.Laws.EncodingShape.Statement .preambleGap := by
  unfold Sys2Proof.Laws.EncodingShape.Statement
  decide

theorem Sys2Proof.Laws.EncodingShape.preambleError :
    Sys2Proof.Laws.EncodingShape.Statement .preambleError := by
  unfold Sys2Proof.Laws.EncodingShape.Statement
  decide

theorem Sys2Proof.Laws.EncodingShape.packetStartZero :
    Sys2Proof.Laws.EncodingShape.Statement .packetStartZero := by
  unfold Sys2Proof.Laws.EncodingShape.Statement
  decide

theorem Sys2Proof.Laws.EncodingShape.packetStartOne :
    Sys2Proof.Laws.EncodingShape.Statement .packetStartOne := by
  unfold Sys2Proof.Laws.EncodingShape.Statement
  decide

theorem Sys2Proof.Laws.EncodingShape.packetStartBitError :
    Sys2Proof.Laws.EncodingShape.Statement .packetStartBitError := by
  unfold Sys2Proof.Laws.EncodingShape.Statement
  decide

theorem Sys2Proof.Laws.EncodingShape.packetStartFramingError :
    Sys2Proof.Laws.EncodingShape.Statement .packetStartFramingError := by
  unfold Sys2Proof.Laws.EncodingShape.Statement
  decide

theorem Sys2Proof.Laws.EncodingShape.commandByteZero :
    Sys2Proof.Laws.EncodingShape.Statement .commandByteZero := by
  unfold Sys2Proof.Laws.EncodingShape.Statement
  decide

theorem Sys2Proof.Laws.EncodingShape.commandByteOne :
    Sys2Proof.Laws.EncodingShape.Statement .commandByteOne := by
  unfold Sys2Proof.Laws.EncodingShape.Statement
  decide

theorem Sys2Proof.Laws.EncodingShape.commandByteBitError :
    Sys2Proof.Laws.EncodingShape.Statement .commandByteBitError := by
  unfold Sys2Proof.Laws.EncodingShape.Statement
  decide

theorem Sys2Proof.Laws.EncodingShape.commandByteFramingError :
    Sys2Proof.Laws.EncodingShape.Statement .commandByteFramingError := by
  unfold Sys2Proof.Laws.EncodingShape.Statement
  decide

theorem Sys2Proof.Laws.EncodingShape.dataStartZero :
    Sys2Proof.Laws.EncodingShape.Statement .dataStartZero := by
  unfold Sys2Proof.Laws.EncodingShape.Statement
  decide

theorem Sys2Proof.Laws.EncodingShape.dataStartOne :
    Sys2Proof.Laws.EncodingShape.Statement .dataStartOne := by
  unfold Sys2Proof.Laws.EncodingShape.Statement
  decide

theorem Sys2Proof.Laws.EncodingShape.dataStartBitError :
    Sys2Proof.Laws.EncodingShape.Statement .dataStartBitError := by
  unfold Sys2Proof.Laws.EncodingShape.Statement
  decide

theorem Sys2Proof.Laws.EncodingShape.dataStartFramingError :
    Sys2Proof.Laws.EncodingShape.Statement .dataStartFramingError := by
  unfold Sys2Proof.Laws.EncodingShape.Statement
  decide

theorem Sys2Proof.Laws.EncodingShape.dataByteZero :
    Sys2Proof.Laws.EncodingShape.Statement .dataByteZero := by
  unfold Sys2Proof.Laws.EncodingShape.Statement
  decide

theorem Sys2Proof.Laws.EncodingShape.dataByteOne :
    Sys2Proof.Laws.EncodingShape.Statement .dataByteOne := by
  unfold Sys2Proof.Laws.EncodingShape.Statement
  decide

theorem Sys2Proof.Laws.EncodingShape.dataByteBitError :
    Sys2Proof.Laws.EncodingShape.Statement .dataByteBitError := by
  unfold Sys2Proof.Laws.EncodingShape.Statement
  decide

theorem Sys2Proof.Laws.EncodingShape.dataByteFramingError :
    Sys2Proof.Laws.EncodingShape.Statement .dataByteFramingError := by
  unfold Sys2Proof.Laws.EncodingShape.Statement
  decide

theorem Sys2Proof.Laws.EncodingShape.checksumStartZero :
    Sys2Proof.Laws.EncodingShape.Statement .checksumStartZero := by
  unfold Sys2Proof.Laws.EncodingShape.Statement
  decide

theorem Sys2Proof.Laws.EncodingShape.checksumStartOne :
    Sys2Proof.Laws.EncodingShape.Statement .checksumStartOne := by
  unfold Sys2Proof.Laws.EncodingShape.Statement
  decide

theorem Sys2Proof.Laws.EncodingShape.checksumStartBitError :
    Sys2Proof.Laws.EncodingShape.Statement .checksumStartBitError := by
  unfold Sys2Proof.Laws.EncodingShape.Statement
  decide

theorem Sys2Proof.Laws.EncodingShape.checksumStartFramingError :
    Sys2Proof.Laws.EncodingShape.Statement .checksumStartFramingError := by
  unfold Sys2Proof.Laws.EncodingShape.Statement
  decide

theorem Sys2Proof.Laws.EncodingShape.checksumByteZero :
    Sys2Proof.Laws.EncodingShape.Statement .checksumByteZero := by
  unfold Sys2Proof.Laws.EncodingShape.Statement
  decide

theorem Sys2Proof.Laws.EncodingShape.checksumByteOne :
    Sys2Proof.Laws.EncodingShape.Statement .checksumByteOne := by
  unfold Sys2Proof.Laws.EncodingShape.Statement
  decide

theorem Sys2Proof.Laws.EncodingShape.checksumByteBitError :
    Sys2Proof.Laws.EncodingShape.Statement .checksumByteBitError := by
  unfold Sys2Proof.Laws.EncodingShape.Statement
  decide

theorem Sys2Proof.Laws.EncodingShape.checksumByteFramingError :
    Sys2Proof.Laws.EncodingShape.Statement .checksumByteFramingError := by
  unfold Sys2Proof.Laws.EncodingShape.Statement
  decide

theorem Sys2Proof.Laws.EncodingShape.packetEndZero :
    Sys2Proof.Laws.EncodingShape.Statement .packetEndZero := by
  unfold Sys2Proof.Laws.EncodingShape.Statement
  decide

theorem Sys2Proof.Laws.EncodingShape.packetEndOne :
    Sys2Proof.Laws.EncodingShape.Statement .packetEndOne := by
  unfold Sys2Proof.Laws.EncodingShape.Statement
  decide

theorem Sys2Proof.Laws.EncodingShape.packetEndGap :
    Sys2Proof.Laws.EncodingShape.Statement .packetEndGap := by
  unfold Sys2Proof.Laws.EncodingShape.Statement
  decide

theorem Sys2Proof.Laws.EncodingShape.packetEndError :
    Sys2Proof.Laws.EncodingShape.Statement .packetEndError := by
  unfold Sys2Proof.Laws.EncodingShape.Statement
  decide

theorem Sys2Proof.Laws.EncodingShape.gapSkipZero :
    Sys2Proof.Laws.EncodingShape.Statement .gapSkipZero := by
  unfold Sys2Proof.Laws.EncodingShape.Statement
  decide

theorem Sys2Proof.Laws.EncodingShape.gapSkipOne :
    Sys2Proof.Laws.EncodingShape.Statement .gapSkipOne := by
  unfold Sys2Proof.Laws.EncodingShape.Statement
  decide

theorem Sys2Proof.Laws.EncodingShape.gapSkipGap :
    Sys2Proof.Laws.EncodingShape.Statement .gapSkipGap := by
  unfold Sys2Proof.Laws.EncodingShape.Statement
  decide

theorem Sys2Proof.Laws.EncodingShape.gapSkipError :
    Sys2Proof.Laws.EncodingShape.Statement .gapSkipError := by
  unfold Sys2Proof.Laws.EncodingShape.Statement
  decide

theorem Sys2Proof.Laws.EncodingShape.halted :
    Sys2Proof.Laws.EncodingShape.Statement .halted := by
  unfold Sys2Proof.Laws.EncodingShape.Statement
  decide
end

