-- ==== Sys2Proof/Laws/Step.lean ====
section
/-! SUPPORT. What one step can do, said once: the inversion of `step`, and the shapes in which an
instruction that was fetched runs. Invariants are proved by cases on these. -/

namespace Sys2Proof.Machine

/-- The key of a running state's step decodes to `i`. -/
def Fetches (s : State) (i : Instr) : Prop :=
  ∃ key, fetchKey s = .ready key ∧ decodeKey key = .ok i

/-- A block that has not halted has no edge fault to answer. -/
theorem edgeFaulted_of_running {s : State} (h : s.st ≠ St.halted) : edgeFaulted s = false := by
  rw [edgeFaulted, decide_eq_false h, Bool.false_and]

/-- The inversion of `step`. -/
theorem step_next {s t : State} (h : step s = .next t) :
    ((s.held = true ∨ (s.st = St.halted ∧ s.Safe) ∨ isStuck s = true) ∧ t = s) ∨
    (s.held = false ∧ s.st ≠ St.halted ∧ isRunning s.st = true ∧ s.cfg.valid = true ∧
      isStuck s = false ∧
      ((cancelTaken s = true ∧ t = halt .cancelled (nextChoice s)) ∨
        (cancelTaken s = false ∧
          ((fetchKey (nextChoice s) = .exhausted ∧ t = halt .exhausted (nextChoice s)) ∨
            (fetchKey (nextChoice s) = .waiting ∧ t = nextChoice s) ∨
            (fetchKey (nextChoice s) = .edgeFault ∧ t = halt .edgeFault (nextChoice s)) ∨
            ∃ i u, Fetches (nextChoice s) i ∧ exec i (nextChoice s) = .next u ∧
              t = noteTransition (nextChoice s) u)))) := by
  unfold step at h
  split at h
  · rename_i hh; cases h; exact .inl ⟨.inl hh, rfl⟩
  rename_i hh
  split at h
  · cases h
  rename_i hf
  split at h
  · rename_i hst
    refine .inl ⟨.inr (.inl ⟨hst, by simpa [edgeFaulted, hst] using hf⟩), ?_⟩
    rw [hst] at h
    have hk : decodeKey (keyOf St.halted 0) = .ok .halted := by decide
    rw [runKey, hk] at h
    obtain ⟨u, hu, rfl⟩ := mapNext_next h
    cases hu
    cases s
    simp [noteTransition]
  rename_i hst
  split at h
  · cases h
  rename_i hr
  split at h
  · cases h
  rename_i hv
  split at h
  · rename_i hs; cases h; exact .inl ⟨.inr (.inr hs), rfl⟩
  rename_i hs
  refine .inr ⟨by simpa using hh, hst, by simpa using hr, by simpa using hv, by simpa using hs, ?_⟩
  split at h
  · rename_i hc; cases h; exact .inl ⟨hc, rfl⟩
  rename_i hc
  refine .inr ⟨by simpa using hc, ?_⟩
  rcases whenReady_next h with ⟨key, hkey, hrun⟩ | he | he | he
  · refine .inr (.inr (.inr ?_))
    unfold runKey at hrun
    split at hrun
    · rename_i i hi
      obtain ⟨u, hu, rfl⟩ := mapNext_next hrun
      exact ⟨i, u, ⟨key, hkey, hi⟩, hu, rfl⟩
    · cases hrun
  · exact .inl he
  · exact .inr (.inl he)
  · exact .inr (.inr (.inl he))

/-! Fetching. -/

theorem supplyMap_ready {α β : Type} {f : α → β} {x : Supply α} {b : β}
    (h : x.map f = .ready b) : ∃ a, x = .ready a ∧ b = f a := by
  cases x with
  | ready a => exact ⟨a, rfl, by cases h; rfl⟩
  | exhausted => cases h
  | waiting => cases h
  | edgeFault => cases h

/-- What a fetched key is made of. -/
theorem fetchKey_ready {s : State} {key : BitVec 6} (h : fetchKey s = .ready key) :
    (needsTwoEdges s.st = false ∧ ∃ e, NextEdge s e ∧ key = keyOf s.st (symbolInput e s).code) ∨
    (needsTwoEdges s.st = true ∧
      ∃ e f, NextEdges s e f ∧ key = keyOf s.st (assembleBit e f s).1.code) := by
  unfold fetchKey at h
  split at h
  · rename_i hn
    obtain ⟨⟨e, f⟩, he, rfl⟩ := supplyMap_ready h
    exact .inr ⟨hn, e, f, (supplyTwo_ready s e f).1 he, rfl⟩
  · rename_i hn
    obtain ⟨e, he, rfl⟩ := supplyMap_ready h
    exact .inl ⟨by simpa using hn, e, (supplyOne_ready s e).1 he, rfl⟩

theorem keyOf_st (st : BitVec 4) (x : BitVec 2) : (keyOf st x).extractLsb' 2 4 = st := by
  revert st x; decide

theorem keyOf_input (st : BitVec 4) (x : BitVec 2) : (keyOf st x).extractLsb' 0 2 = x := by
  revert st x; decide

/-- A key that decodes to an instruction other than HALTED is that instruction's key. -/
theorem key_of_decodeKey {key : BitVec 6} {i : Instr} (h : decodeKey key = .ok i) :
    i = .halted ∨ key = encodeKey i := by
  have all : ∀ k : BitVec 6, (match decodeKey k with
    | .ok j => j == .halted || k == encodeKey j
    | .error _ => true) = true := by decide
  have := all key
  rw [h] at this
  simpa using this

/-- HALTED is decoded only from keys whose state code is 0xF. -/
theorem halted_of_decodeKey {key : BitVec 6} (h : decodeKey key = .ok .halted) :
    key.extractLsb' 2 4 = St.halted := by
  have all : ∀ k : BitVec 6, (match decodeKey k with
    | .ok .halted => k.extractLsb' 2 4 == St.halted
    | _ => true) = true := by decide
  have := all key
  rw [h] at this
  simpa using this

theorem symbol_code_inj {a b : HalfBitSymbol} (h : a.code = b.code) : a = b := by
  cases a <;> cases b <;> first | rfl | cases h

theorem bit_code_inj {a b : LogicalBit} (h : a.code = b.code) : a = b := by
  cases a <;> cases b <;> first | rfl | cases h

/-- An instruction of a one-edge state was fetched for the next edge and its symbol. -/
theorem fetches_one {s : State} {i : Instr} (hr : isRunning s.st = true) (h : Fetches s i)
    (h2 : needsTwoEdges ((encodeKey i).extractLsb' 2 4) = false) :
    ∃ e, NextEdge s e ∧ s.st = (encodeKey i).extractLsb' 2 4 ∧
      (symbolInput e s).code = (encodeKey i).extractLsb' 0 2 := by
  obtain ⟨key, hk, hd⟩ := h
  rcases fetchKey_ready hk with ⟨-, e, he, rfl⟩ | ⟨hn, e, f, -, rfl⟩
  · rcases key_of_decodeKey hd with rfl | hke
    · have := halted_of_decodeKey hd
      rw [keyOf_st] at this
      rw [this] at hr
      exact absurd hr (by decide)
    · exact ⟨e, he, by rw [← hke, keyOf_st], by rw [← hke, keyOf_input]⟩
  · rcases key_of_decodeKey hd with rfl | hke
    · have := halted_of_decodeKey hd
      rw [keyOf_st] at this
      rw [this] at hr
      exact absurd hr (by decide)
    · rw [← hke, keyOf_st, hn] at h2
      cases h2

/-- An instruction of a two-edge state was fetched for the next two edges and their bit. -/
theorem fetches_two {s : State} {i : Instr} (hr : isRunning s.st = true) (h : Fetches s i)
    (h2 : needsTwoEdges ((encodeKey i).extractLsb' 2 4) = true) :
    ∃ e f, NextEdges s e f ∧ s.st = (encodeKey i).extractLsb' 2 4 ∧
      (assembleBit e f s).1.code = (encodeKey i).extractLsb' 0 2 := by
  obtain ⟨key, hk, hd⟩ := h
  rcases fetchKey_ready hk with ⟨hn, e, -, rfl⟩ | ⟨-, e, f, hef, rfl⟩
  · rcases key_of_decodeKey hd with rfl | hke
    · have := halted_of_decodeKey hd
      rw [keyOf_st] at this
      rw [this] at hr
      exact absurd hr (by decide)
    · rw [← hke, keyOf_st, hn] at h2
      cases h2
  · rcases key_of_decodeKey hd with rfl | hke
    · have := halted_of_decodeKey hd
      rw [keyOf_st] at this
      rw [this] at hr
      exact absurd hr (by decide)
    · exact ⟨e, f, hef, by rw [← hke, keyOf_st], by rw [← hke, keyOf_input]⟩

/-- The state after the two half-bits of a bit in a byte state. -/
def afterByteBit (e f : Pos) (s : State) : State := edgePop f (edgePop e (markByte s))

/-- The state after the two half-bits of a start bit. -/
def afterStartBit (e f : Pos) (s : State) : State := edgePop f (edgePop e (markUnit s))

/-- The shapes in which a fetched instruction of a running state runs: the state it starts in, the edges
and input it was fetched for, and the state it answers. -/
inductive Runs (s : State) : State → Prop where
  | huntOne (e : Pos) (hst : s.st = St.hunt) (he : NextEdge s e)
      (hc : (consume e s).1 = .one) : Runs s (countPreamble s.cur (edgePop e s))
  | huntMiss (e : Pos) (hst : s.st = St.hunt) (he : NextEdge s e)
      (hc : (consume e s).1 ≠ .one) : Runs s (restartCount (edgePop e s))
  | preambleOne (e : Pos) (hst : s.st = St.preamble) (he : NextEdge s e)
      (hc : peekSymbol e s = .one) :
      Runs s { edgePop e s with pcnt := countOne (edgePop e s).pcnt }
  | preambleZero (e : Pos) (hst : s.st = St.preamble) (he : NextEdge s e)
      (hc : peekSymbol e s = .zero) : Runs s (goto St.packetStart (emit (preambleFrame s) s))
  | preambleFail (e : Pos) (kind : ErrorKind) (hst : s.st = St.preamble) (he : NextEdge s e)
      (hk : kind = .unexpectedGap ∨ kind = .halfBitError) :
      Runs s (raiseError kind s.pstart e s)
  | packetStart (e f : Pos) (hst : s.st = St.packetStart) (he : NextEdges s e f)
      (hc : (assembleBit e f s).1 = .zero) : Runs s (confirmPacketStart (afterStartBit e f s))
  | dataStart (e f : Pos) (hst : s.st = St.dataStart) (he : NextEdges s e f)
      (hc : (assembleBit e f s).1 = .zero) :
      Runs s (confirmDataStart St.dataByte (afterStartBit e f s))
  | checksumStart (e f : Pos) (hst : s.st = St.checksumStart) (he : NextEdges s e f)
      (hc : (assembleBit e f s).1 = .zero) :
      Runs s (confirmDataStart St.checksumByte (afterStartBit e f s))
  | startFail (e f : Pos) (kind : ErrorKind)
      (hst : s.st = St.packetStart ∨ s.st = St.dataStart ∨ s.st = St.checksumStart)
      (he : NextEdges s e f)
      (hk : kind = .unexpectedOne ∨ kind = .bitError ∨ kind = .framingError) :
      Runs s (bitFail kind (afterStartBit e f s))
  | byteFail (e f : Pos) (kind : ErrorKind) (hst : isByteState s.st = true)
      (he : NextEdges s e f) (hk : kind = .bitError ∨ kind = .framingError) :
      Runs s (bitFail kind (afterByteBit e f s))
  | byteMid (e f : Pos) (b : BitVec 1) (hst : isByteState s.st = true) (he : NextEdges s e f)
      (hb : s.ctx.bidx + 1 ≠ 8) : Runs s (shiftIn b (afterByteBit e f s))
  | commandDone (e f : Pos) (b : BitVec 1) (hst : s.st = St.commandByte) (he : NextEdges s e f)
      (hb : s.ctx.bidx + 1 = 8) (u : State)
      (hu : completeCommand ((s.ctx.shreg <<< 1) ||| b.setWidth 8)
        (clearByte (afterByteBit e f s)) = .next u) : Runs s u
  | dataDone (e f : Pos) (b : BitVec 1) (hst : s.st = St.dataByte) (he : NextEdges s e f)
      (hb : s.ctx.bidx + 1 = 8) (u : State)
      (hu : completeData ((s.ctx.shreg <<< 1) ||| b.setWidth 8)
        (clearByte (afterByteBit e f s)) = .next u) : Runs s u
  | checksumDone (e f : Pos) (b : BitVec 1) (hst : s.st = St.checksumByte) (he : NextEdges s e f)
      (hb : s.ctx.bidx + 1 = 8) (u : State)
      (hu : completeChecksum ((s.ctx.shreg <<< 1) ||| b.setWidth 8)
        (clearByte (afterByteBit e f s)) = .next u) : Runs s u
  | endGap (e : Pos) (hst : s.st = St.packetEnd) (he : NextEdge s e)
      (hc : peekSymbol e s = .gap) :
      Runs s (goto St.gapSkip { emit (bareFrame .pebit s.cur e) s with pcnt := 0 })
  | endOne (e : Pos) (hst : s.st = St.packetEnd) (he : NextEdge s e)
      (hc : peekSymbol e s = .one) :
      Runs s { toHunt 1 (edgePop e (emit (bareFrame .pebit s.cur e) s)) with pstart := s.cur }
  | endFail (e : Pos) (kind : ErrorKind) (hst : s.st = St.packetEnd) (he : NextEdge s e)
      (hk : kind = .unexpectedZero ∨ kind = .halfBitError) : Runs s (raiseError kind s.cur e s)
  | skipGap (e : Pos) (hst : s.st = St.gapSkip) (he : NextEdge s e)
      (hc : peekSymbol e s = .gap) : Runs s (edgePop e s)
  | skipEnd (e : Pos) (hst : s.st = St.gapSkip) (he : NextEdge s e)
      (hc : peekSymbol e s ≠ .gap) : Runs s (toHunt 0 s)

/-- What a byte state does with a ZERO or ONE bit: shift it in, or complete the byte. -/
theorem takeBit_cases {b : BitVec 1} {complete : BitVec 8 → State → StepResult} {s u : State}
    (h : takeBit b complete s = .next u) :
    (s.ctx.bidx + 1 ≠ 8 ∧ u = shiftIn b s) ∨
    (s.ctx.bidx + 1 = 8 ∧
      complete ((s.ctx.shreg <<< 1) ||| b.setWidth 8) (clearByte s) = .next u) := by
  unfold takeBit byteDone at h
  simp only [shiftIn_bidx] at h
  by_cases hb : s.ctx.bidx + 1 = 8
  · simp only [hb, beq_self_eq_true, if_true, shiftIn_shreg] at h
    exact .inr ⟨hb, h⟩
  · have : (s.ctx.bidx + 1 == 8) = false := by simpa using hb
    simp only [this, Bool.false_eq_true, if_false] at h
    exact .inl ⟨hb, by cases h; rfl⟩

/-- A fetched one-edge instruction runs its operation on the next edge. -/
theorem exec_one {s u : State} {e : Pos} {run : Pos → StepResult} (he : NextEdge s e)
    (h : whenReady (supplyOne s) s run = .next u) : run e = .next u := by
  rwa [whenReady_one he] at h

/-- A fetched start-bit instruction answers its operation on the consumed bit. -/
theorem exec_startBit {s u : State} {e f : Pos} {done : State → State} (he : NextEdges s e f)
    (h : startBitStep done s = .next u) : u = done (afterStartBit e f s) := by
  unfold startBitStep at h
  rw [whenReady_two he] at h
  cases h; rfl

/-- A fetched byte instruction runs its operation on the consumed bit. -/
theorem exec_byteBit {s u : State} {e f : Pos} {done : State → StepResult}
    (he : NextEdges s e f) (h : byteBitStep done s = .next u) :
    done (afterByteBit e f s) = .next u := by
  unfold byteBitStep at h
  rwa [whenReady_two he] at h

/-- A fetched error of a byte state answers the error entry on the consumed bit. -/
theorem exec_byteFail {s u : State} {e f : Pos} {kind : ErrorKind} (he : NextEdges s e f)
    (h : byteBitStep (fun t => .next (bitFail kind t)) s = .next u) :
    u = bitFail kind (afterByteBit e f s) := by
  cases exec_byteBit he h; rfl

theorem afterByteBit_ctx (e f : Pos) (s : State) : (afterByteBit e f s).ctx = s.ctx := by
  simp [afterByteBit]

/-- A fetched ZERO or ONE in a byte state shifts in or completes. -/
theorem exec_takeBit {s u : State} {e f : Pos} {b : BitVec 1}
    {complete : BitVec 8 → State → StepResult} (he : NextEdges s e f)
    (h : byteBitStep (takeBit b complete) s = .next u) :
    (s.ctx.bidx + 1 ≠ 8 ∧ u = shiftIn b (afterByteBit e f s)) ∨
    (s.ctx.bidx + 1 = 8 ∧
      complete ((s.ctx.shreg <<< 1) ||| b.setWidth 8) (clearByte (afterByteBit e f s)) =
        .next u) := by
  have := takeBit_cases (exec_byteBit he h)
  rwa [afterByteBit_ctx] at this

/-- Every instruction fetched by a running state runs in one of the shapes. -/
theorem exec_runs {s u : State} {i : Instr} (hr : isRunning s.st = true) (hf : Fetches s i)
    (h : exec i s = .next u) : Runs s u := by
  cases hn : needsTwoEdges ((encodeKey i).extractLsb' 2 4) with
  | false =>
    obtain ⟨e, he, hst, hc⟩ := fetches_one hr hf hn
    have hh : s.st = St.hunt → symbolInput e s = (consume e s).1 := fun q => by
      unfold symbolInput; rw [if_pos q]
    have hp : s.st ≠ St.hunt → symbolInput e s = peekSymbol e s := fun q => by
      unfold symbolInput; rw [if_neg q]
    cases i
    case huntZero =>
      have hst : s.st = St.hunt := hst
      have hc := symbol_code_inj (b := .zero) hc
      rw [hh hst] at hc
      cases exec_one he h
      exact .huntMiss e hst he (by simp [hc])
    case huntOne =>
      have hst : s.st = St.hunt := hst
      have hc := symbol_code_inj (b := .one) hc
      rw [hh hst] at hc
      cases exec_one he h
      exact .huntOne e hst he hc
    case huntError =>
      have hst : s.st = St.hunt := hst
      have hc := symbol_code_inj (b := .error) hc
      rw [hh hst] at hc
      cases exec_one he h
      exact .huntMiss e hst he (by simp [hc])
    case preambleZero =>
      have hst : s.st = St.preamble := hst
      have hc := symbol_code_inj (b := .zero) hc
      rw [hp (by rw [hst]; decide)] at hc
      cases exec_one he h
      exact .preambleZero e hst he hc
    case preambleOne =>
      have hst : s.st = St.preamble := hst
      have hc := symbol_code_inj (b := .one) hc
      rw [hp (by rw [hst]; decide)] at hc
      cases exec_one he h
      exact .preambleOne e hst he hc
    case preambleGap =>
      cases exec_one he h
      exact .preambleFail e _ hst he (.inl rfl)
    case preambleError =>
      cases exec_one he h
      exact .preambleFail e _ hst he (.inr rfl)
    case packetEndZero =>
      cases exec_one he h
      exact .endFail e _ hst he (.inl rfl)
    case packetEndError =>
      cases exec_one he h
      exact .endFail e _ hst he (.inr rfl)
    case packetEndOne =>
      have hst : s.st = St.packetEnd := hst
      have hc := symbol_code_inj (b := .one) hc
      rw [hp (by rw [hst]; decide)] at hc
      cases exec_one he h
      exact .endOne e hst he hc
    case packetEndGap =>
      have hst : s.st = St.packetEnd := hst
      have hc := symbol_code_inj (b := .gap) hc
      rw [hp (by rw [hst]; decide)] at hc
      cases exec_one he h
      exact .endGap e hst he hc
    case gapSkipGap =>
      have hst : s.st = St.gapSkip := hst
      have hc := symbol_code_inj (b := .gap) hc
      rw [hp (by rw [hst]; decide)] at hc
      cases exec_one he h
      exact .skipGap e hst he hc
    case gapSkipZero =>
      have hst : s.st = St.gapSkip := hst
      have hc := symbol_code_inj (b := .zero) hc
      rw [hp (by rw [hst]; decide)] at hc
      cases exec_one he h
      exact .skipEnd e hst he (by simp [hc])
    case gapSkipOne =>
      have hst : s.st = St.gapSkip := hst
      have hc := symbol_code_inj (b := .one) hc
      rw [hp (by rw [hst]; decide)] at hc
      cases exec_one he h
      exact .skipEnd e hst he (by simp [hc])
    case gapSkipError =>
      have hst : s.st = St.gapSkip := hst
      have hc := symbol_code_inj (b := .error) hc
      rw [hp (by rw [hst]; decide)] at hc
      cases exec_one he h
      exact .skipEnd e hst he (by simp [hc])
    case halted =>
      have hst : s.st = St.halted := hst
      rw [hst] at hr
      exact absurd hr (by decide)
    all_goals exact absurd hn (by decide)
  | true =>
    obtain ⟨e, f, he, hst, hc⟩ := fetches_two hr hf hn
    cases i
    case packetStartZero =>
      cases exec_startBit he h
      exact .packetStart e f hst he (bit_code_inj (b := .zero) hc)
    case dataStartZero =>
      cases exec_startBit he h
      exact .dataStart e f hst he (bit_code_inj (b := .zero) hc)
    case checksumStartZero =>
      cases exec_startBit he h
      exact .checksumStart e f hst he (bit_code_inj (b := .zero) hc)
    case packetStartOne =>
      cases exec_startBit he h
      exact .startFail e f _ (.inl hst) he (.inl rfl)
    case packetStartBitError =>
      cases exec_startBit he h
      exact .startFail e f _ (.inl hst) he (.inr (.inl rfl))
    case packetStartFramingError =>
      cases exec_startBit he h
      exact .startFail e f _ (.inl hst) he (.inr (.inr rfl))
    case dataStartOne =>
      cases exec_startBit he h
      exact .startFail e f _ (.inr (.inl hst)) he (.inl rfl)
    case dataStartBitError =>
      cases exec_startBit he h
      exact .startFail e f _ (.inr (.inl hst)) he (.inr (.inl rfl))
    case dataStartFramingError =>
      cases exec_startBit he h
      exact .startFail e f _ (.inr (.inl hst)) he (.inr (.inr rfl))
    case checksumStartOne =>
      cases exec_startBit he h
      exact .startFail e f _ (.inr (.inr hst)) he (.inl rfl)
    case checksumStartBitError =>
      cases exec_startBit he h
      exact .startFail e f _ (.inr (.inr hst)) he (.inr (.inl rfl))
    case checksumStartFramingError =>
      cases exec_startBit he h
      exact .startFail e f _ (.inr (.inr hst)) he (.inr (.inr rfl))
    case commandByteZero =>
      have hst : s.st = St.commandByte := hst
      rcases exec_takeBit he h with ⟨hb, rfl⟩ | ⟨hb, hu⟩
      · exact .byteMid e f 0 (by rw [hst]; rfl) he hb
      · exact .commandDone e f 0 hst he hb u hu
    case commandByteOne =>
      have hst : s.st = St.commandByte := hst
      rcases exec_takeBit he h with ⟨hb, rfl⟩ | ⟨hb, hu⟩
      · exact .byteMid e f 1 (by rw [hst]; rfl) he hb
      · exact .commandDone e f 1 hst he hb u hu
    case dataByteZero =>
      have hst : s.st = St.dataByte := hst
      rcases exec_takeBit he h with ⟨hb, rfl⟩ | ⟨hb, hu⟩
      · exact .byteMid e f 0 (by rw [hst]; rfl) he hb
      · exact .dataDone e f 0 hst he hb u hu
    case dataByteOne =>
      have hst : s.st = St.dataByte := hst
      rcases exec_takeBit he h with ⟨hb, rfl⟩ | ⟨hb, hu⟩
      · exact .byteMid e f 1 (by rw [hst]; rfl) he hb
      · exact .dataDone e f 1 hst he hb u hu
    case checksumByteZero =>
      have hst : s.st = St.checksumByte := hst
      rcases exec_takeBit he h with ⟨hb, rfl⟩ | ⟨hb, hu⟩
      · exact .byteMid e f 0 (by rw [hst]; rfl) he hb
      · exact .checksumDone e f 0 hst he hb u hu
    case checksumByteOne =>
      have hst : s.st = St.checksumByte := hst
      rcases exec_takeBit he h with ⟨hb, rfl⟩ | ⟨hb, hu⟩
      · exact .byteMid e f 1 (by rw [hst]; rfl) he hb
      · exact .checksumDone e f 1 hst he hb u hu
    case commandByteBitError =>
      have hst : s.st = St.commandByte := hst
      cases exec_byteFail he h
      exact .byteFail e f _ (by rw [hst]; rfl) he (.inl rfl)
    case commandByteFramingError =>
      have hst : s.st = St.commandByte := hst
      cases exec_byteFail he h
      exact .byteFail e f _ (by rw [hst]; rfl) he (.inr rfl)
    case dataByteBitError =>
      have hst : s.st = St.dataByte := hst
      cases exec_byteFail he h
      exact .byteFail e f _ (by rw [hst]; rfl) he (.inl rfl)
    case dataByteFramingError =>
      have hst : s.st = St.dataByte := hst
      cases exec_byteFail he h
      exact .byteFail e f _ (by rw [hst]; rfl) he (.inr rfl)
    case checksumByteBitError =>
      have hst : s.st = St.checksumByte := hst
      cases exec_byteFail he h
      exact .byteFail e f _ (by rw [hst]; rfl) he (.inl rfl)
    case checksumByteFramingError =>
      have hst : s.st = St.checksumByte := hst
      cases exec_byteFail he h
      exact .byteFail e f _ (by rw [hst]; rfl) he (.inr rfl)
    all_goals exact absurd hn (by decide)

/-- The state after a byte state's two half-bits as one update. -/
theorem afterByteBit_eq (e f : Pos) (s : State) :
    afterByteBit e f s =
      { s with
        ustart := if s.ctx.bidx = 0 then s.cur else s.ustart, cur := f, k := s.k + 2 } := by
  unfold afterByteBit markByte
  split <;> rfl

/-- The expected counts of a valid configuration are 1 to 6 (10_state.md R50). -/
theorem expectedBytes_range {c : CfgRegs} (h : c.valid = true) (m : Mode) :
    0 < expectedBytes c m ∧ expectedBytes c m ≤ 6 := by
  simp only [CfgRegs.valid, Bool.and_eq_true, Bool.or_eq_true, decide_eq_true_eq, beq_iff_eq] at h
  cases m with
  | race => simp [expectedBytes]
  | program => rcases h.1.1.2 with h | h <;> simp [expectedBytes, h]
  | unknown => exact ⟨h.1.2, h.2⟩

/-- Everything a completed data byte does when it does not fault. -/
theorem completeData_next {v : BitVec 8} {s u : State} (h : completeData v s = .next u) :
    s.ctx.carIndex.toNat < 6 ∧ ∃ x,
      u = { s with
        st := x
        ctx.carIndex := s.ctx.carIndex + 1
        ctx.cks := s.ctx.cks ^^^ v
        ctx.car := s.ctx.car.setIfInBounds s.ctx.carIndex.toNat v
        out := (emit (carDataFrame v s) s).out } ∧
      ((x = St.checksumStart ∧ s.ctx.carIndex.toNat + 1 = expectedBytes s.cfg s.ctx.mode) ∨
        (x = St.dataStart ∧ s.ctx.carIndex.toNat + 1 ≠ expectedBytes s.cfg s.ctx.mode)) := by
  unfold completeData at h
  split at h
  · rename_i hc
    cases h
    have hn : (s.ctx.carIndex + 1).toNat = s.ctx.carIndex.toNat + 1 := by
      rw [BitVec.toNat_add]
      simp
      omega
    refine ⟨hc, if (s.ctx.carIndex + 1).toNat = expectedBytes s.cfg s.ctx.mode then
      St.checksumStart else St.dataStart, rfl, ?_⟩
    rw [hn]
    split
    · exact .inl ⟨rfl, ‹_›⟩
    · exact .inr ⟨rfl, ‹_›⟩
  · cases h

/-- Where nothing stops or cancels it, a running step is the common beginning and the fetched key. -/
theorem step_ordinary {s : State} (h : Ordinary s) (h9 : isRunning s.st = true) :
    step s = whenReady (fetchKey s) s (runKey s) := by
  obtain ⟨o1, o2, o3, o4, o5⟩ := h
  have ne : s.st ≠ St.halted := by intro h'; rw [h'] at h9; exact absurd h9 (by decide)
  have o7 : isStuck s = false := by
    have o6 : (s.ctx.carIndex == 7) = false := by simpa using o5
    simp only [isStuck, o6, Bool.or_false, decide_eq_false_iff_not]
    omega
  unfold step
  rw [if_neg (by simp [o1]), if_neg (by rw [edgeFaulted_of_running ne]; decide), if_neg ne, if_neg (by simp [h9]),
    if_neg (by simp [o3]),
    if_neg (by simp [o7]), if_neg (by simp [cancelTaken_of_cancel_false o2]),
    nextChoice_of_cancel_false o2]

/-! The contract of the Edge Source. -/

/-- Strictly increasing edges are in order two by two. -/
theorem edges_lt_next {s : State} (h : EdgesIncrease s) {j : Nat} {e f : Pos}
    (he : s.src.edges[j]? = some e) (hf : s.src.edges[j + 1]? = some f) : e < f := by
  obtain ⟨h1, rfl⟩ := List.getElem?_eq_some_iff.1 he
  obtain ⟨h2, rfl⟩ := List.getElem?_eq_some_iff.1 hf
  exact List.pairwise_iff_getElem.1 h.tail j (j + 1) h1 h2 (Nat.lt_succ_self j)

/-- With the cursor at the last edge, the next edge of an increasing sequence lies after the cursor. -/
theorem cur_lt_next {s : State} (hc : CursorAtLastEdge s) (h : EdgesIncrease s) {e : Pos}
    (he : s.src.edges[s.k]? = some e) : s.cur < e := by
  obtain ⟨-, h0, hk⟩ := hc
  rcases Nat.eq_zero_or_pos s.k with hz | hp
  · rw [h0 hz]
    exact (List.pairwise_cons.1 h).1 e (List.mem_of_getElem? he)
  · exact edges_lt_next h (hk hp) (by rwa [Nat.sub_add_cancel hp])

/-- Where the Edge Source keeps its contract, a one-edge step finds no edge fault. -/
theorem supplyOne_ne_edgeFault {s : State} (hc : CursorAtLastEdge s) (h : EdgesIncrease s) :
    supplyOne s ≠ .edgeFault := by
  cases he : s.src.edges[s.k]? with
  | none => rw [supplyOne_of_none s he]; split <;> nofun
  | some e => rw [(supplyOne_ready s e).2 ⟨he, cur_lt_next hc h he⟩]; nofun

/-- Where the Edge Source keeps its contract, a two-edge step finds no edge fault. -/
theorem supplyTwo_ne_edgeFault {s : State} (hc : CursorAtLastEdge s) (h : EdgesIncrease s) :
    supplyTwo s ≠ .edgeFault := by
  cases hf : s.src.edges[s.k + 1]? with
  | none => rw [supplyTwo_of_none s hf]; split <;> nofun
  | some f =>
    obtain ⟨hl, -⟩ := List.getElem?_eq_some_iff.1 hf
    have he := List.getElem?_eq_getElem (Nat.lt_of_succ_lt hl)
    rw [(supplyTwo_ready s _ f).2 ⟨he, hf, cur_lt_next hc h he, edges_lt_next h he hf⟩]; nofun

/-- Where the Edge Source keeps its contract, fetching finds no edge fault. -/
theorem fetchKey_ne_edgeFault {s : State} (hc : CursorAtLastEdge s) (h : EdgesIncrease s) :
    fetchKey s ≠ .edgeFault := by
  unfold fetchKey
  split
  · have := supplyTwo_ne_edgeFault hc h
    revert this; cases supplyTwo s <;> simp [Supply.map]
  · have := supplyOne_ne_edgeFault hc h
    revert this; cases supplyOne s <;> simp [Supply.map]

end Sys2Proof.Machine
end

