-- ==== Sys2Proof/Tests/Slice0.lean ====
section
/-! SUPPORT. The model's own tests. Every expected value comes from spec/: the vectors of
95_test_vectors.md (named at each test), the codes of 30_encoding.md, the rules cited. The last part gives
a witness of the hypotheses of every statement that has any. -/

namespace Sys2Proof.Tests

open Sys2Proof Sys2Proof.Machine

/-- A block in state `x` at `cur`, every other register as after reset, under the example configuration,
with the edges that the intervals `lens` make and no end of the capture. -/
def poised (x : BitVec 4) (cur : Pos) (lens : List Nat) : State :=
  { State.reset with
    st := x
    cur := cur
    src := { edges := (edgesFrom cur.toNat lens).map (BitVec.ofNat 64), ended := false } }

/-- One step answers exactly the state `t`. -/
def stepsTo (s t : State) : Bool :=
  match step s with
  | .next u => decide (u = t)
  | _ => false

/-- `s` after one frame of the default policy: `TYPE{a, b, flags, d1, d2}` of 95_test_vectors.md. -/
def shown (t : FrameType) (a b : Pos) (flags : BitVec 4) (d1 d2 : Word64) : Output :=
  { frames := [⟨a, b, t, flags, d1, d2⟩], markers := [], commits := 1 }

/-- The output after one ERROR frame of the default policy. -/
def failed (a b : Pos) (flags : BitVec 4) (kind st : Word64) : Output :=
  { frames := [⟨a, b, .error, flags, kind, st⟩], markers := [⟨a, .start⟩, ⟨b, .stop⟩], commits := 1 }

/-- The state a decode error leaves, from the registers it does not touch. -/
def huntFrom (s : State) (cur : Pos) (k : Nat) (ustart : Pos) (out : Output) : State :=
  { s with st := 0, cur := cur, k := k, ustart := ustart, pcnt := 0, ctx := .clear, out := out }

/-- `s` with a part of a packet in it. -/
def inPacket (s : State) (m : Mode) (carIndex : BitVec 3) (cks : BitVec 8) : State :=
  { s with ctx.mode := m, ctx.carIndex := carIndex, ctx.cks := cks }

/-- `s` with a part of a byte in it. -/
def inByte (s : State) (ustart : Pos) (bidx : BitVec 4) (shreg : BitVec 8) : State :=
  { s with ustart := ustart, ctx.bidx := bidx, ctx.shreg := shreg }

/-! ## Decoding: words written from R90 (state), R93 and R94 (input), R92 (`st || in`) -/

theorem test_decode_hunt :
    decodeKey (0x0#4 ++ 0b00#2) = .ok .huntZero ∧ decodeKey (0x0#4 ++ 0b01#2) = .ok .huntOne ∧
    decodeKey (0x0#4 ++ 0b11#2) = .ok .huntError := ⟨rfl, rfl, rfl⟩

theorem test_decode_preamble :
    decodeKey (0x1#4 ++ 0b00#2) = .ok .preambleZero ∧
    decodeKey (0x1#4 ++ 0b01#2) = .ok .preambleOne ∧
    decodeKey (0x1#4 ++ 0b10#2) = .ok .preambleGap ∧
    decodeKey (0x1#4 ++ 0b11#2) = .ok .preambleError := ⟨rfl, rfl, rfl, rfl⟩

theorem test_decode_packet_start :
    decodeKey (0x2#4 ++ 0b00#2) = .ok .packetStartZero ∧
    decodeKey (0x2#4 ++ 0b01#2) = .ok .packetStartOne ∧
    decodeKey (0x2#4 ++ 0b10#2) = .ok .packetStartBitError ∧
    decodeKey (0x2#4 ++ 0b11#2) = .ok .packetStartFramingError := ⟨rfl, rfl, rfl, rfl⟩

theorem test_decode_command_byte :
    decodeKey (0x3#4 ++ 0b00#2) = .ok .commandByteZero ∧
    decodeKey (0x3#4 ++ 0b01#2) = .ok .commandByteOne ∧
    decodeKey (0x3#4 ++ 0b10#2) = .ok .commandByteBitError ∧
    decodeKey (0x3#4 ++ 0b11#2) = .ok .commandByteFramingError := ⟨rfl, rfl, rfl, rfl⟩

theorem test_decode_data_start :
    decodeKey (0x4#4 ++ 0b00#2) = .ok .dataStartZero ∧
    decodeKey (0x4#4 ++ 0b01#2) = .ok .dataStartOne ∧
    decodeKey (0x4#4 ++ 0b10#2) = .ok .dataStartBitError ∧
    decodeKey (0x4#4 ++ 0b11#2) = .ok .dataStartFramingError := ⟨rfl, rfl, rfl, rfl⟩

theorem test_decode_data_byte :
    decodeKey (0x5#4 ++ 0b00#2) = .ok .dataByteZero ∧
    decodeKey (0x5#4 ++ 0b01#2) = .ok .dataByteOne ∧
    decodeKey (0x5#4 ++ 0b10#2) = .ok .dataByteBitError ∧
    decodeKey (0x5#4 ++ 0b11#2) = .ok .dataByteFramingError := ⟨rfl, rfl, rfl, rfl⟩

theorem test_decode_checksum_start :
    decodeKey (0x6#4 ++ 0b00#2) = .ok .checksumStartZero ∧
    decodeKey (0x6#4 ++ 0b01#2) = .ok .checksumStartOne ∧
    decodeKey (0x6#4 ++ 0b10#2) = .ok .checksumStartBitError ∧
    decodeKey (0x6#4 ++ 0b11#2) = .ok .checksumStartFramingError := ⟨rfl, rfl, rfl, rfl⟩

theorem test_decode_checksum_byte :
    decodeKey (0x7#4 ++ 0b00#2) = .ok .checksumByteZero ∧
    decodeKey (0x7#4 ++ 0b01#2) = .ok .checksumByteOne ∧
    decodeKey (0x7#4 ++ 0b10#2) = .ok .checksumByteBitError ∧
    decodeKey (0x7#4 ++ 0b11#2) = .ok .checksumByteFramingError := ⟨rfl, rfl, rfl, rfl⟩

theorem test_decode_packet_end :
    decodeKey (0x8#4 ++ 0b00#2) = .ok .packetEndZero ∧
    decodeKey (0x8#4 ++ 0b01#2) = .ok .packetEndOne ∧
    decodeKey (0x8#4 ++ 0b10#2) = .ok .packetEndGap ∧
    decodeKey (0x8#4 ++ 0b11#2) = .ok .packetEndError := ⟨rfl, rfl, rfl, rfl⟩

theorem test_decode_gap_skip :
    decodeKey (0x9#4 ++ 0b00#2) = .ok .gapSkipZero ∧
    decodeKey (0x9#4 ++ 0b01#2) = .ok .gapSkipOne ∧
    decodeKey (0x9#4 ++ 0b10#2) = .ok .gapSkipGap ∧
    decodeKey (0x9#4 ++ 0b11#2) = .ok .gapSkipError := ⟨rfl, rfl, rfl, rfl⟩

/-- HALTED ignores its input bits (R92). -/
theorem test_decode_halted : ∀ x : BitVec 2, decodeKey (0xF#4 ++ x) = .ok .halted := by decide

/-- The keys of no row are rejected by name (R91, R95). -/
theorem test_decode_rejects :
    decodeKey (0x0#4 ++ 0b10#2) = .error .unreachableKey ∧
    decodeKey (0xA#4 ++ 0b00#2) = .error .reservedState ∧
    decodeKey (0xE#4 ++ 0b11#2) = .error .reservedState := ⟨rfl, rfl, rfl⟩

/-- No two rows of the table overlap. -/
theorem test_rows_disjoint :
    keyRows.Pairwise (fun a b => a.mask &&& b.mask &&& (a.pattern ^^^ b.pattern) ≠ 0) := by decide

theorem test_decode_bytes :
    decode [0b00010101, 0xAA] = .ok (.dataByteOne, [0xAA]) ∧
    decode [0b01010101] = .error .notAKeyByte ∧ decode [] = .error .truncated := ⟨rfl, rfl, rfl⟩

theorem test_table_word : decodeTableWord 8 0b00100110 = some .gapSkipGap := by decide

theorem test_table_word_rejected : decodeTableWord 8 0b00101000 = none := by decide

/-! ## Running a table word as the first step after reset -/

theorem test_fetch_word_one_edge :
    (match step (State.reset.withFetchWord 8 0b00100010) with
      | .next t => t.st == 9 && t.k == 0
      | _ => false) = true := by decide

theorem test_fetch_word_two_edges :
    (match step (State.reset.withFetchWord 8 0b00010011) with
      | .next t => t.st == 0 && t.k == 2 && t.out.frames.map (fun f => (f.data1, f.data2)) == [(5, 4)]
      | _ => false) = true := by decide

/-! ## Well-formedness: each check refuses an ill-formed term -/

theorem test_wf_accepts :
    (⟨0, 1680, .preamble, 0, 14, 28⟩ : Frame).wf = true ∧
    (⟨1910, 3755, .command, 0, 2, 2⟩ : Frame).wf = true ∧
    (⟨12790, 14080, .carData, 0, 79, 6⟩ : Frame).wf = true ∧
    (⟨14310, 15820, .checksum, 0b1000, 131, 130⟩ : Frame).wf = true ∧
    (⟨1910, 2565, .error, 0b0001, 4, 3⟩ : Frame).wf = true := by decide

theorem test_wf_preamble_flag : (⟨0, 1, .preamble, 1, 14, 28⟩ : Frame).wf = false := by decide
theorem test_wf_preamble_count :
    (⟨0, 1, .preamble, 0, 2 ^ 31, 2 ^ 32⟩ : Frame).wf = false := by decide
theorem test_wf_preamble_half : (⟨0, 1, .preamble, 0, 15, 28⟩ : Frame).wf = false := by decide
theorem test_wf_psbit_data : (⟨0, 1, .psbit, 0, 1, 0⟩ : Frame).wf = false := by decide
theorem test_wf_dsbit_flag : (⟨0, 1, .dsbit, 2, 0, 0⟩ : Frame).wf = false := by decide
theorem test_wf_pebit_data2 : (⟨0, 1, .pebit, 0, 0, 1⟩ : Frame).wf = false := by decide
theorem test_wf_command_byte : (⟨0, 1, .command, 0, 256, 0⟩ : Frame).wf = false := by decide
theorem test_wf_command_mode : (⟨0, 1, .command, 0, 2, 1⟩ : Frame).wf = false := by decide
theorem test_wf_car_index_low : (⟨0, 1, .carData, 0, 5, 0⟩ : Frame).wf = false := by decide
theorem test_wf_car_index_high : (⟨0, 1, .carData, 0, 5, 7⟩ : Frame).wf = false := by decide
theorem test_wf_checksum_unflagged : (⟨0, 1, .checksum, 0, 5, 6⟩ : Frame).wf = false := by decide
theorem test_wf_checksum_flagged : (⟨0, 1, .checksum, 8, 5, 5⟩ : Frame).wf = false := by decide
theorem test_wf_error_kind : (⟨0, 1, .error, 1, 7, 1⟩ : Frame).wf = false := by decide
theorem test_wf_error_flag : (⟨0, 1, .error, 2, 4, 3⟩ : Frame).wf = false := by decide
theorem test_wf_error_state : (⟨0, 1, .error, 1, 4, 0⟩ : Frame).wf = false := by decide
theorem test_wf_instr : ∀ i ∈ [Instr.huntOne, .dataByteZero, .halted], i.wf = true := by decide

/-- V70.2, and one clause each of 10_state.md R50. -/
theorem test_cfg_valid : CfgRegs.reset.valid = true := by decide
theorem test_cfg_windows_overlap :
    (CfgRegs.valid { CfgRegs.reset with max1 := 110, min0 := 106 }) = false := by decide
theorem test_cfg_preamble_bits_low :
    (CfgRegs.valid { CfgRegs.reset with preambleBits := 7 }) = false := by decide
theorem test_cfg_preamble_bits_high :
    (CfgRegs.valid { CfgRegs.reset with preambleBits := 23 }) = false := by decide
theorem test_cfg_program_bytes :
    (CfgRegs.valid { CfgRegs.reset with programBytes := 5 }) = false := by decide
theorem test_cfg_unknown_bytes_low :
    (CfgRegs.valid { CfgRegs.reset with unknownBytes := 0 }) = false := by decide
theorem test_cfg_unknown_bytes_high :
    (CfgRegs.valid { CfgRegs.reset with unknownBytes := 7 }) = false := by decide
theorem test_cfg_min1_zero : (CfgRegs.valid { CfgRegs.reset with min1 := 0 }) = false := by decide
theorem test_cfg_one_window_empty :
    (CfgRegs.valid { CfgRegs.reset with min1 := 64 }) = false := by decide
theorem test_cfg_zero_window_empty :
    (CfgRegs.valid { CfgRegs.reset with min0 := 126 }) = false := by decide

/-! ## The line code (V40) -/

theorem test_V40_consume :
    [56, 57, 60, 63, 64, 105, 106, 125, 126, 299, 300, 1000000, 1000001].map
        (fun len => classify .reset len false) =
      [.error, .one, .one, .one, .error, .error, .zero, .zero, .error, .error, .error, .error,
        .error] := by decide

theorem test_V40_peek :
    [56, 57, 60, 63, 64, 105, 106, 125, 126, 299, 300, 1000000, 1000001].map
        (fun len => classify .reset len true) =
      [.error, .one, .one, .one, .error, .error, .zero, .zero, .error, .error, .gap, .gap,
        .error] := by decide

theorem test_V40_15 :
    classify { CfgRegs.reset with min0 := 64 } 64 false = .zero := by decide

theorem test_V40_16 :
    classify { CfgRegs.reset with minGap := 100 } 115 true = .zero ∧
    classify { CfgRegs.reset with minGap := 100 } 200 true = .gap := by decide

theorem test_V40_18 :
    classify { CfgRegs.reset with minGap := 2000, maxGap := 1000 } 1500 true = .error := by decide

/-! ## The bit assembler (V41) -/

/-- The bit two intervals make. -/
def bitOf (l1 l2 : Nat) : LogicalBit :=
  (assembleBit (BitVec.ofNat 64 l1) (BitVec.ofNat 64 (l1 + l2)) State.reset).1

theorem test_V41 :
    [bitOf 60 60, bitOf 115 115, bitOf 60 115, bitOf 115 60, bitOf 60 80, bitOf 80 60,
        bitOf 60 5000, bitOf 115 80] =
      [.one, .zero, .framingError, .framingError, .bitError, .bitError, .bitError, .bitError] := by
  decide

theorem test_V41_9 :
    (assembleBit 125 250 { State.reset with cfg.maxBit := 250 }).1 = .zero ∧
    (assembleBit 125 250 { State.reset with cfg.maxBit := 249 }).1 = .bitError := by decide

/-! ## The checksum (V43) -/

/-- The accumulator after a packet start, a command and the data bytes. -/
def cksOf (F : CksumFormula) (cmd : BitVec 8) (data : List (BitVec 8)) : BitVec 8 :=
  (data.foldl (fun t d => cksFoldData d t)
    (cksFoldCommand cmd (cksInit { State.reset with cfg.cksumFormula := F }))).ctx.cks

theorem test_V43_1_2 :
    cksOf .xorData 0x02 [0x3F, 0x53, 0x80, 0x00, 0x21, 0x4F] = 0x82 ∧
    cksOf .ffCmdData 0x02 [0x3F, 0x53, 0x80, 0x00, 0x21, 0x4F] = 0x7F := by decide

theorem test_V43_4_5_7 :
    cksOf .xorData 0x02 [0x3F, 0x53, 0x81, 0x00, 0x21, 0x4F] = 0x83 ∧
    cksOf .ffCmdData 0x01 [0x15, 0x15, 0x15, 0x15] = 0xFE ∧
    cksOf .ffCmdData 0x07 [0, 0, 0, 0, 0, 0] = 0xF8 := by decide

/-! ## One step for every key (V42), named as in 95_test_vectors.md -/

theorem test_V42_HU_1 :
    let s := poised 0 1000 [60]
    stepsTo s { s with cur := 1060, k := 1, pcnt := 1, pstart := 1000 } = true := by decide

theorem test_V42_HU_2 :
    let s := { poised 0 1000 [60] with pcnt := 27 }
    stepsTo s { s with st := 1, cur := 1060, k := 1, pcnt := 28 } = true := by decide

theorem test_V42_HU_3 :
    let s := { poised 0 1000 [115] with pcnt := 5, pstart := 700 }
    stepsTo s { s with cur := 1115, k := 1, pcnt := 0 } = true := by decide

theorem test_V42_HU_4 :
    let s := { poised 0 1000 [5000] with pcnt := 5 }
    stepsTo s { s with cur := 6000, k := 1, pcnt := 0 } = true := by decide

/-- The preamble counter saturates (10_state.md R23). -/
theorem test_pcnt_saturates :
    let s := { poised 1 1680 [60] with pcnt := 0xFFFFFFFF }
    stepsTo s { s with cur := 1740, k := 1 } = true := by decide

theorem test_V42_PR_1 :
    let s := { poised 1 1680 [60] with pcnt := 28 }
    stepsTo s { s with cur := 1740, k := 1, pcnt := 29 } = true := by decide

theorem test_V42_PR_2 :
    let s := { poised 1 1680 [115] with pcnt := 28 }
    stepsTo s { s with st := 2, out := shown .preamble 0 1680 0 14 28 } = true := by decide

theorem test_V42_PR_3 :
    let s := { poised 1 1680 [400] with pcnt := 28 }
    stepsTo s (huntFrom s 1680 0 0 (failed 0 2080 0b0100 2 1)) = true := by decide

theorem test_V42_PR_4 :
    let s := { poised 1 1680 [80] with pcnt := 28 }
    stepsTo s (huntFrom s 1680 0 0 (failed 0 1760 0b0001 1 1)) = true := by decide

theorem test_V42_PS_1 :
    let s := inPacket (poised 2 1680 [115, 115]) .unknown 0 0x55
    stepsTo s
      { s with
        st := 3, cur := 1910, k := 2, ustart := 1680, ctx.cks := 0
        out := shown .psbit 1680 1910 0 0 0 } = true := by decide

theorem test_V42_PS_2 :
    let s := { poised 2 1680 [115, 115] with cfg.cksumFormula := .ffCmdData }
    stepsTo s
      { s with
        st := 3, cur := 1910, k := 2, ustart := 1680, ctx.cks := 0xFF
        out := shown .psbit 1680 1910 0 0 0 } = true := by decide

theorem test_V42_PS_3 :
    let s := poised 2 1680 [60, 60]
    stepsTo s (huntFrom s 1800 2 1680 (failed 1680 1800 0b0100 6 2)) = true := by decide

theorem test_V42_PS_4 :
    let s := poised 2 1680 [115, 200]
    stepsTo s (huntFrom s 1995 2 1680 (failed 1680 1995 0b0001 4 2)) = true := by decide

theorem test_V42_PS_5 :
    let s := poised 2 1680 [115, 60]
    stepsTo s (huntFrom s 1855 2 1680 (failed 1680 1855 0b0010 5 2)) = true := by decide

theorem test_V42_CB_1 :
    let s := poised 3 1910 [115, 115]
    stepsTo s { s with cur := 2140, k := 2, ustart := 1910, ctx.bidx := 1 } = true := by decide

theorem test_V42_CB_2 :
    let s := inByte (poised 3 3520 [60, 60]) 1910 7 0x01
    stepsTo s
      { s with
        st := 4, cur := 3640, k := 2, ctx.cmd := 3, ctx.bidx := 0, ctx.shreg := 0
        out := shown .command 1910 3640 0 3 0 } = true := by decide

theorem test_V42_CB_3 :
    let s := inByte (poised 3 3525 [115, 115]) 1910 7 0x01
    stepsTo s
      { s with
        st := 4, cur := 3755, k := 2, ctx.cmd := 2, ctx.mode := .race, ctx.bidx := 0
        ctx.shreg := 0, out := shown .command 1910 3755 0 2 2 } = true := by decide

theorem test_V42_CB_4 :
    let s := inPacket (inByte { poised 3 3520 [60, 60] with cfg.cksumFormula := .ffCmdData }
      1910 7 0x00) .unknown 0 0xFF
    stepsTo s
      { s with
        st := 4, cur := 3640, k := 2, ctx.cmd := 1, ctx.mode := .program, ctx.cks := 0xFE
        ctx.bidx := 0, ctx.shreg := 0, out := shown .command 1910 3640 0 1 1 } = true := by decide

theorem test_V42_CB_5 :
    let s := inByte (poised 3 2370 [115, 80]) 1910 2 0
    stepsTo s (huntFrom s 2565 2 1910 (failed 1910 2565 0b0001 4 3)) = true := by decide

theorem test_V42_CB_6 :
    let s := inByte (poised 3 2370 [60, 115]) 1910 2 0
    stepsTo s (huntFrom s 2545 2 1910 (failed 1910 2545 0b0010 5 3)) = true := by decide

theorem test_V42_DS_1 :
    let s := inPacket (poised 4 3640 [115, 115]) .race 0 0x11
    stepsTo s
      { s with
        st := 5, cur := 3870, k := 2, ustart := 3640, out := shown .dsbit 3640 3870 0 0 0 } =
      true := by decide

theorem test_V42_DS_2 :
    let s := inPacket (poised 4 3640 [60, 60]) .race 0 0x11
    stepsTo s (huntFrom s 3760 2 3640 (failed 3640 3760 0b0100 6 4)) = true := by decide

theorem test_V42_DS_3 :
    let s := poised 4 3640 [115, 5000]
    stepsTo s (huntFrom s 8755 2 3640 (failed 3640 8755 0b0001 4 4)) = true := by decide

theorem test_V42_DS_4 :
    let s := poised 4 3640 [60, 115]
    stepsTo s (huntFrom s 3815 2 3640 (failed 3640 3815 0b0010 5 4)) = true := by decide

theorem test_V42_DB_1 :
    let s := inPacket (poised 5 3870 [60, 60]) .race 0 0
    stepsTo s { s with cur := 3990, k := 2, ustart := 3870, ctx.bidx := 1, ctx.shreg := 1 } =
      true := by decide

theorem test_V42_DB_2 :
    let s := inPacket (inByte (poised 5 4930 [60, 60]) 3870 7 0x1F) .race 0 0
    stepsTo s
      { s with
        st := 4, cur := 5050, k := 2, ctx.car := #v[0x3F, 0, 0, 0, 0, 0], ctx.carIndex := 1
        ctx.cks := 0x3F, ctx.bidx := 0, ctx.shreg := 0
        out := shown .carData 3870 5050 0 63 1 } = true := by decide

theorem test_V42_DB_3 :
    let s := inPacket (inByte (poised 5 13960 [60, 60]) 12790 7 0x27) .race 5 0xCD
    stepsTo s
      { s with
        st := 6, cur := 14080, k := 2, ctx.car := #v[0, 0, 0, 0, 0, 0x4F], ctx.carIndex := 6
        ctx.cks := 0x82, ctx.bidx := 0, ctx.shreg := 0
        out := shown .carData 12790 14080 0 79 6 } = true := by decide

theorem test_V42_DB_4 :
    let s := inPacket (inByte { poised 5 9000 [115, 115] with cfg.programBytes := 4 }
      8000 7 0x0A) .program 3 0
    stepsTo s
      { s with
        st := 6, cur := 9230, k := 2, ctx.car := #v[0, 0, 0, 0x14, 0, 0], ctx.carIndex := 4
        ctx.cks := 0x14, ctx.bidx := 0, ctx.shreg := 0
        out := shown .carData 8000 9230 0 20 4 } = true := by decide

theorem test_V42_DB_5 :
    let s := inPacket (poised 5 3870 [63, 64]) .race 0 0
    stepsTo s (huntFrom s 3997 2 3870 (failed 3870 3997 0b0001 4 5)) = true := by decide

theorem test_V42_DB_6 :
    let s := inPacket (inByte (poised 5 4100 [115, 63]) 3870 1 0) .race 2 0x6C
    stepsTo s (huntFrom s 4278 2 3870 (failed 3870 4278 0b0010 5 5)) = true := by decide

theorem test_V42_CS_1 :
    let s := inPacket (poised 6 14080 [115, 115]) .race 6 0x82
    stepsTo s
      { s with
        st := 7, cur := 14310, k := 2, ustart := 14080
        out := shown .dsbit 14080 14310 0 0 0 } = true := by decide

theorem test_V42_CS_2 :
    let s := poised 6 14080 [60, 60]
    stepsTo s (huntFrom s 14200 2 14080 (failed 14080 14200 0b0100 6 6)) = true := by decide

theorem test_V42_CS_3 :
    let s := poised 6 14080 [5000, 115]
    stepsTo s (huntFrom s 19195 2 14080 (failed 14080 19195 0b0001 4 6)) = true := by decide

theorem test_V42_CS_4 :
    let s := poised 6 14080 [115, 57]
    stepsTo s (huntFrom s 14252 2 14080 (failed 14080 14252 0b0010 5 6)) = true := by decide

theorem test_V42_CK_1 :
    let s := inPacket (poised 7 14310 [60, 60]) .race 6 0x82
    stepsTo s { s with cur := 14430, k := 2, ustart := 14310, ctx.bidx := 1, ctx.shreg := 1 } =
      true := by decide

theorem test_V42_CK_2 :
    let s := inPacket (inByte (poised 7 15700 [115, 115]) 14310 7 0x41) .race 6 0x82
    stepsTo s
      { s with
        st := 8, cur := 15930, k := 2, ctx.bidx := 0, ctx.shreg := 0
        out := shown .checksum 14310 15930 0b0000 130 130 } = true := by decide

theorem test_V42_CK_3 :
    let s := inPacket (inByte (poised 7 15700 [60, 60]) 14310 7 0x41) .race 6 0x82
    stepsTo s
      { s with
        st := 8, cur := 15820, k := 2, ctx.bidx := 0, ctx.shreg := 0
        out := shown .checksum 14310 15820 0b1000 131 130 } = true := by decide

theorem test_V42_CK_4 :
    let s := poised 7 14310 [126, 125]
    stepsTo s (huntFrom s 14561 2 14310 (failed 14310 14561 0b0001 4 7)) = true := by decide

theorem test_V42_CK_5 :
    let s := poised 7 14310 [106, 63]
    stepsTo s (huntFrom s 14479 2 14310 (failed 14310 14479 0b0010 5 7)) = true := by decide

theorem test_V42_PE_GAP :
    let s := { inPacket (poised 8 15930 [5000]) .race 6 0x82 with pcnt := 28 }
    stepsTo s { s with st := 9, pcnt := 0, out := shown .pebit 15930 20930 0 0 0 } = true := by
  decide

theorem test_V42_PE_ONE :
    let s := inPacket (poised 8 15930 [60]) .race 6 0x82
    stepsTo s
      { s with
        st := 0, cur := 15990, k := 1, pcnt := 1, pstart := 15930, ctx := .clear
        out := shown .pebit 15930 15990 0 0 0 } = true := by decide

theorem test_V42_PE_ZERO :
    let s := poised 8 15930 [115]
    stepsTo s (huntFrom s 15930 0 0 (failed 15930 16045 0b0100 3 8)) = true := by decide

theorem test_V42_PE_ERROR :
    let s := poised 8 15930 [2000000]
    stepsTo s (huntFrom s 15930 0 0 (failed 15930 2015930 0b0001 1 8)) = true := by decide

theorem test_V42_GS_GAP :
    let s := inPacket (poised 9 15930 [5000]) .race 6 0x82
    stepsTo s { s with cur := 20930, k := 1 } = true := by decide

theorem test_V42_GS_ONE :
    let s := { inPacket (poised 9 20930 [60]) .race 6 0x82 with pcnt := 3 }
    stepsTo s { s with st := 0, pcnt := 0, ctx := .clear } = true := by decide

theorem test_V42_GS_ZERO :
    let s := inPacket (poised 9 20930 [115]) .race 6 0x82
    stepsTo s { s with st := 0, ctx := .clear } = true := by decide

theorem test_V42_GS_ERROR :
    let s := inPacket (poised 9 20930 [90]) .race 6 0x82
    stepsTo s { s with st := 0, ctx := .clear } = true := by decide

theorem test_V42_HA_1 :
    let s := { poised 0xF 20930 [60] with hcause := .exhausted }
    stepsTo s s = true := by decide

/-! ## Stops (V60) -/

theorem test_V60_1 :
    let s := { poised 4 3640 [115] with src.ended := true }
    stepsTo s { s with st := 0xF, hcause := .exhausted } = true := by decide

theorem test_V60_2 :
    let s := { inPacket (poised 9 20930 []) .race 6 0x82 with src.ended := true }
    stepsTo s { s with st := 0xF, hcause := .exhausted } = true := by decide

theorem test_V60_3 :
    let s := { State.reset with cur := 1000, src.edges := [1000] }
    let t := { State.reset with cur := 1000, src.edges := [990] }
    stepsTo s { s with st := 0xF, hcause := .edgeFault } = true ∧
    stepsTo t { t with st := 0xF, hcause := .edgeFault } = true := by decide

/-- 60_exceptions.md R251: a run that reaches EDGE_FAULT faults; a reset leaves the fault behind. -/
theorem test_edge_fault_is_a_fault :
    let s := { poised 0xF 1000 [] with hcause := .edgeFault }
    (match Host.Core.run Sys2Proof.core 2 { State.reset with cur := 1000, src.edges := [1000] } with
      | .fault .edgeFault => true
      | _ => false) = true ∧
    stepsTo (hostHoldReset s) (hostHoldReset s) = true ∧
    (hostReleaseReset (hostHoldReset s)).hcause = .none := by decide

/-- A release of a block that was not held resets it and keeps its edges (log entry 14). -/
theorem test_release_not_held :
    let s := hostReleaseReset (poised 9 20930 [60])
    s.st = 0 ∧ s.k = 0 ∧ s.src = (poised 9 20930 [60]).src := by decide

/-- V60.5: inside a byte no halt is taken, and a silent bit forces none. -/
theorem test_V60_5 :
    let s := { inByte (poised 3 2140 [115, 115]) 1910 1 0 with cancel := true }
    stepsTo s { s with cur := 2370, k := 2, ctx.bidx := 2, choice := 1 } = true := by decide

/-- V60.4, V60.5: the step that completes the byte forces the halt at the boundary after it. -/
theorem test_V60_forced :
    let s := { inByte (poised 3 3525 [115, 115]) 1910 7 0x01 with cancel := true }
    (match step s with
      | .next t => t.cancelDue && stepsTo t { t with st := 0xF, hcause := .cancelled, choice := 2 }
      | _ => false) = true := by decide

/-- 60_exceptions.md R253: cancellation comes before exhaustion. -/
theorem test_cancel_before_exhaustion :
    let s := { poised 9 20930 [] with src.ended := true, cancel := true, cancelDue := true }
    stepsTo s { s with st := 0xF, hcause := .cancelled, choice := 1 } = true := by decide

theorem test_reserved_state : ∀ x ∈ [0xA#4, 0xB#4, 0xC#4, 0xD#4, 0xE#4],
    (match step (poised x 0 [60, 60]) with
      | .fault .reservedState => true
      | _ => false) = true := by decide

theorem test_invalid_configuration :
    (match step { poised 0 0 [60] with cfg.max1 := 110 } with
      | .refused .invalidConfiguration => true
      | _ => false) = true := by decide

/-! ## The host's port (V70, R104) -/

theorem test_V70_1 :
    let s := hostReleaseReset { hostHoldReset (poised 9 20930 [60]) with cfg.start := 500 }
    s.st = 0 ∧ s.cur = 500 ∧ s.k = 0 ∧ s.ctx = .clear ∧ s.out = .empty ∧ s.hcause = .none := by
  decide

theorem test_cfg_write_truncates :
    (CfgRegs.reset.write 7 0x2A).read 7 = 0x0A ∧ (CfgRegs.reset.write 8 3).read 8 = 1 ∧
    (CfgRegs.reset.write 12 5) = CfgRegs.reset ∧ CfgRegs.reset.read 15 = 0 := by decide

theorem test_host_delivers :
    (match hostDeliver 560 State.reset with
      | .next s => s.src.edges == [560]
      | _ => false) = true ∧
    (match hostDeliver (2 ^ 64) State.reset with
      | .refused .positionOverflow => true
      | _ => false) = true ∧
    (match hostDeliver 560 (hostEndCapture State.reset) with
      | .refused .edgeAfterEnd => true
      | _ => false) = true := by decide

/-- A packed frame (30_encoding.md R102): CHECKSUM with CHECKSUM_ERROR, type 5, flags 8. -/
theorem test_pack :
    (⟨14310, 15820, .checksum, 0b1000, 131, 130⟩ : Frame).pack = [14310, 15820, 131, 130, 0x805] ∧
    Frame.unpack [0, 0, 0, 0, 0x009] = none ∧ Frame.unpack [0, 0, 0, 0, 0x010] = none := by decide

/-- A consumer reads what R106 lets it accept (log entry 21): flags 0b0011, mode code 3. -/
theorem test_unpack_reserved :
    Frame.unpack [1, 2, 5, 3, 0x302] = some ⟨1, 2, .command, 0b0011, 5, 3⟩ ∧
    Marker.unpack [7, 3] = some ⟨7, .errorSpan⟩ ∧ Marker.unpack [7, 4] = none := by decide

/-- A cancel raised while the block is held is lowered at release, an edge is kept (log entry 14). -/
theorem test_release_lowers_cancel :
    (match hostDeliver 560 (hostRaiseCancel (hostHoldReset State.reset)) with
      | .next s => s.cancel == true && (hostReleaseReset s).cancel == false &&
          (hostReleaseReset s).src.edges == [560]
      | _ => false) = true := by decide

/-- `start 500`, `h 60 x 2` up to its `end`; no `start` is `start 0` (30_encoding.md R109); a position
past 2^64 - 1 does not wrap (20_memory.md R66, U7). -/
theorem test_stimulus_load :
    (match Stimulus.load .reset { start := some 500, stmts := [.h 60 2], ended := true } with
      | .next s => s.st == 0 && s.cur == 500 && s.cfg.start == 500 && s.src.edges == [560, 620] &&
          s.src.ended && !s.held
      | _ => false) = true ∧
    (match Stimulus.load .reset { stmts := [.h 60 1], ended := false } with
      | .next s => s.cur == 0 && s.src.edges == [60] && !s.src.ended
      | _ => false) = true := by decide

theorem test_stimulus_overflow :
    (match Stimulus.load .reset { start := some (2 ^ 64), stmts := [], ended := true } with
      | .refused .positionOverflow => true
      | _ => false) = true ∧
    (match Stimulus.load .reset
        { start := some (2 ^ 64 - 60), stmts := [.h 59 1, .h 1 1], ended := true } with
      | .refused .positionOverflow => true
      | _ => false) = true := by decide

/-- `byte 0x02`, and P5's stimulus (95_test_vectors.md P5: 31 intervals, last edge 6855). -/
theorem test_stimulus :
    byteIntervals 60 115 0x02 =
      [115, 115, 115, 115, 115, 115, 115, 115, 115, 115, 115, 115, 60, 60, 115, 115] ∧
    (Stimulus.edges 14
      { ended := true
        stmts := [.nominal 60 115, .pre 14, .bad 115 60, .gap 5000] }).drop 28 =
      [1795, 1855, 6855] := by decide

/-- A packet's intervals: the preamble, a start bit before every byte, and the bytes
(30_encoding.md R110). -/
theorem test_stimulus_packet :
    (stmtIntervals 1 60 115 (.packet 0x01 [] 0x80)) =
      [60, 60] ++ [115, 115] ++ byteIntervals 60 115 0x01 ++ [115, 115] ++ [60, 60] ++
        List.replicate 14 115 := by decide

/-! ## Witnesses: for every statement with hypotheses, states and operands that meet them -/

/-- A legal state in the middle of a data byte. -/
def midByte : State := inPacket (inByte (poised 5 4930 [60, 60]) 3870 7 0x1F) .race 0 0

theorem witness_ConfigurationRegistersByNumber :
    11 ≠ 0 ∧ (0 ≤ 6 ∨ 0 = 11) ∧ (6 ≤ 6 ∨ 6 = 11) ∧ (11 ≤ 6 ∨ 11 = 11) ∧ 12 ≤ 12 := by decide

theorem witness_ConfigurationWriteOnlyWhenStopped :
    (hostHoldReset State.reset).held = true ∧
    (poised 0xF 0 []).st = St.halted ∧ (poised 0xF 0 []).held = false ∧
    State.reset.held = false ∧ State.reset.st ≠ St.halted := by decide

theorem witness_ClassifyByWindows :
    CfgRegs.reset.valid = true ∧
    CfgRegs.valid { CfgRegs.reset with max1 := 63, min0 := 64 } = true := by decide

theorem witness_EightShiftsMsbFirst :
    State.reset.ctx.shreg = 0 ∧ State.reset.ctx.bidx = 0 := by decide

theorem witness_EmitIsOneAppend :
    State.reset.policy = none ∧ (⟨0, 1, .error, 1, 4, 3⟩ : Frame).frameType = .error ∧
    (⟨0, 1, .psbit, 0, 0, 0⟩ : Frame).frameType ≠ .error := by decide

theorem witness_FlippedBitIsFlagged : (0x01 : BitVec 8) ≠ 0 := by decide

theorem witness_HuntInstructions :
    (poised 0 1000 [60]).st = St.hunt ∧ NextEdge (poised 0 1000 [60]) 1060 := by decide

theorem witness_PreambleOneCounts :
    (poised 1 1680 [60]).st = St.preamble ∧ NextEdge (poised 1 1680 [60]) 1740 := by decide

theorem witness_PreambleZeroEmits :
    (poised 1 1680 [115]).st = St.preamble ∧ NextEdge (poised 1 1680 [115]) 1795 := by decide

theorem witness_PeekErrorsReturnToHunt :
    ((poised 1 1680 [400]).st = St.preamble ∧ NextEdge (poised 1 1680 [400]) 2080) ∧
    ((poised 8 15930 [115]).st = St.packetEnd ∧ NextEdge (poised 8 15930 [115]) 16045) := by decide

theorem witness_PacketStartZeroEmits :
    (poised 2 1680 [115, 115]).st = St.packetStart ∧
    NextEdges (poised 2 1680 [115, 115]) 1795 1910 := by decide

theorem witness_DataStartZeroEmits :
    ((poised 4 3640 [115, 115]).st = St.dataStart ∧
      NextEdges (poised 4 3640 [115, 115]) 3755 3870) ∧
    ((poised 6 14080 [115, 115]).st = St.checksumStart ∧
      NextEdges (poised 6 14080 [115, 115]) 14195 14310) := by decide

theorem witness_StartBitErrorsReturnToHunt :
    ((poised 2 1680 [60, 60]).st = St.packetStart ∧
      (Instr.packetStartOne, (6 : Word64), 0b0100#4) ∈
        [(Instr.packetStartOne, (6 : Word64), 0b0100#4), (.packetStartBitError, 4, 0b0001),
          (.packetStartFramingError, 5, 0b0010)] ∧
      NextEdges (poised 2 1680 [60, 60]) 1740 1800) ∧
    ((poised 4 3640 [60, 60]).st = St.dataStart ∧
      NextEdges (poised 4 3640 [60, 60]) 3700 3760) ∧
    ((poised 6 14080 [60, 60]).st = St.checksumStart ∧
      NextEdges (poised 6 14080 [60, 60]) 14140 14200) := by decide

theorem witness_ByteBitsShiftIn :
    ((poised 3 1910 [115, 115]).st = St.commandByte ∧
      (Instr.commandByteZero, 0#8) ∈ [(Instr.commandByteZero, 0#8), (.commandByteOne, 1)] ∧
      (poised 3 1910 [115, 115]).ctx.bidx.toNat < 7 ∧
      NextEdges (poised 3 1910 [115, 115]) 2025 2140) ∧
    (let s := inByte (poised 5 3870 [60, 60]) 3640 6 0;
      s.st = St.dataByte ∧ s.ctx.bidx.toNat < 7 ∧ NextEdges s 3930 3990) ∧
    (let s := poised 7 14310 [60, 60];
      s.st = St.checksumByte ∧ s.ctx.bidx.toNat < 7 ∧ NextEdges s 14370 14430) := by decide

theorem witness_CommandByteCompletes :
    let s := inByte (poised 3 3525 [115, 115]) 1910 7 0x01
    s.st = St.commandByte ∧
      (Instr.commandByteZero, 0#8) ∈ [(Instr.commandByteZero, 0#8), (.commandByteOne, 1)] ∧
      s.ctx.bidx = 7 ∧ NextEdges s 3640 3755 := by decide

theorem witness_DataByteCompletes :
    (midByte.st = St.dataByte ∧
      (Instr.dataByteOne, 1#8) ∈ [(Instr.dataByteZero, 0#8), (.dataByteOne, 1)] ∧
      midByte.ctx.bidx = 7 ∧ NextEdges midByte 4990 5050 ∧ midByte.ctx.carIndex.toNat < 6) ∧
    (let s := inPacket midByte .race 5 0;
      s.st = St.dataByte ∧ s.ctx.bidx = 7 ∧ NextEdges s 4990 5050 ∧ s.ctx.carIndex.toNat < 6) ∧
    (let s := inPacket midByte .race 6 0;
      s.st = St.dataByte ∧ s.ctx.bidx = 7 ∧ NextEdges s 4990 5050 ∧ 6 ≤ s.ctx.carIndex.toNat) := by
  decide

theorem witness_ChecksumByteCompletes :
    let s := inPacket (inByte (poised 7 15700 [115, 115]) 14310 7 0x41) .race 6 0x82
    s.st = St.checksumByte ∧
      (Instr.checksumByteZero, 0#8) ∈ [(Instr.checksumByteZero, 0#8), (.checksumByteOne, 1)] ∧
      s.ctx.bidx = 7 ∧ NextEdges s 15815 15930 := by decide

theorem witness_ByteErrorsReturnToHunt :
    (let s := inByte (poised 3 2370 [115, 80]) 1910 2 0;
      s.st = St.commandByte ∧ (Instr.commandByteBitError, (4 : Word64), 0b0001#4) ∈
        [(Instr.commandByteBitError, (4 : Word64), 0b0001#4), (.commandByteFramingError, 5, 0b0010)]
      ∧ NextEdges s 2485 2565) ∧
    ((poised 5 3870 [63, 64]).st = St.dataByte ∧ NextEdges (poised 5 3870 [63, 64]) 3933 3997) ∧
    ((poised 7 14310 [106, 63]).st = St.checksumByte ∧
      NextEdges (poised 7 14310 [106, 63]) 14416 14479) := by decide

theorem witness_PacketEndGapEmits :
    (poised 8 15930 [5000]).st = St.packetEnd ∧ NextEdge (poised 8 15930 [5000]) 20930 := by decide

theorem witness_PacketEndOneCountsOnce :
    (poised 8 15930 [60]).st = St.packetEnd ∧ NextEdge (poised 8 15930 [60]) 15990 := by decide

theorem witness_GapSkipInstructions :
    (poised 9 15930 [5000]).st = St.gapSkip ∧ NextEdge (poised 9 15930 [5000]) 20930 ∧
    Instr.gapSkipError ∈ [Instr.gapSkipOne, .gapSkipZero, .gapSkipError] := by decide

theorem witness_HaltedChangesNothing : (poised 0xF 20930 [60]).st = St.halted := by decide

/-- No edge, one edge of the two needed, and an edge at the cursor, for a one-edge and a two-edge
instruction. -/
theorem witness_ExecWithoutItsEdges :
    Instr.huntOne ≠ .halted ∧ Instr.dataByteOne ≠ .halted ∧
    (poised 0 1000 []).src.edges.length < (poised 0 1000 []).k + edgesNeeded .huntOne ∧
    (poised 5 1000 [60]).src.edges.length < (poised 5 1000 [60]).k + edgesNeeded .dataByteOne ∧
    (let s := poised 0 1000 [0];
      s.src.edges[s.k]? = some 1000 ∧
        s.src.edges[s.k + edgesNeeded .huntOne - 1]? = some 1000 ∧ (1000 : Pos) ≤ s.cur) ∧
    (let s := poised 5 1000 [60, 0];
      s.src.edges[s.k]? = some 1060 ∧
        s.src.edges[s.k + edgesNeeded .dataByteOne - 1]? = some 1060 ∧
        edgesNeeded .dataByteOne = 2 ∧ (1060 : Pos) ≤ 1060) := by decide

theorem witness_HuntStep :
    Ordinary (poised 0 1000 [60]) ∧ (poised 0 1000 [60]).st = St.hunt ∧
    NextEdge (poised 0 1000 [60]) 1060 := by decide

theorem witness_PreambleStep :
    Ordinary (poised 1 1680 [115]) ∧ (poised 1 1680 [115]).st = St.preamble ∧
    NextEdge (poised 1 1680 [115]) 1795 := by decide

theorem witness_StartBitSteps :
    (Ordinary (poised 2 1680 [115, 115]) ∧ (poised 2 1680 [115, 115]).st = St.packetStart ∧
      NextEdges (poised 2 1680 [115, 115]) 1795 1910) ∧
    (Ordinary (poised 4 3640 [60, 60]) ∧ (poised 4 3640 [60, 60]).st = St.dataStart ∧
      NextEdges (poised 4 3640 [60, 60]) 3700 3760) ∧
    (Ordinary (poised 6 14080 [115, 57]) ∧ (poised 6 14080 [115, 57]).st = St.checksumStart ∧
      NextEdges (poised 6 14080 [115, 57]) 14195 14252) := by decide

theorem witness_CommandByteStep :
    let s := inByte (poised 3 3525 [115, 115]) 1910 7 0x01
    Ordinary s ∧ s.st = St.commandByte ∧ NextEdges s 3640 3755 := by decide

theorem witness_DataByteStep :
    midByte.ctx.carIndex.toNat < 6 ∧ Ordinary midByte ∧ midByte.st = St.dataByte ∧
    NextEdges midByte 4990 5050 := by decide

theorem witness_ChecksumByteStep :
    let s := inPacket (inByte (poised 7 15700 [60, 60]) 14310 7 0x41) .race 6 0x82
    Ordinary s ∧ s.st = St.checksumByte ∧ NextEdges s 15760 15820 := by decide

theorem witness_PacketEndAndGapSkipSteps :
    (Ordinary (poised 8 15930 [60]) ∧ NextEdge (poised 8 15930 [60]) 15990 ∧
      (poised 8 15930 [60]).st = St.packetEnd) ∧
    (Ordinary (poised 9 15930 [5000]) ∧ NextEdge (poised 9 15930 [5000]) 20930 ∧
      (poised 9 15930 [5000]).st = St.gapSkip) := by decide

theorem witness_KeyIsStateThenInput :
    ((poised 0 1000 [60]).st = St.hunt ∧ NextEdge (poised 0 1000 [60]) 1060) ∧
    ((poised 9 15930 [5000]).st = St.gapSkip ∧ NextEdge (poised 9 15930 [5000]) 20930) ∧
    ((poised 4 3640 [60, 60]).st = St.dataStart ∧
      NextEdges (poised 4 3640 [60, 60]) 3700 3760) := by decide

/-- An ordinary step; a step with cancel raised inside a byte; HALTED. -/
theorem witness_StepRunsTheDecodedInstruction :
    (let s := poised 8 15930 [5000];
      s.held = false ∧ decodeKey 0b100010 = .ok .packetEndGap ∧ Ordinary s ∧
        isRunning s.st = true ∧ fetchKey s = .ready 0b100010) ∧
    (let s := { midByte with cancel := true };
      s.held = false ∧ decodeKey 0b010101 = .ok .dataByteOne ∧ isRunning s.st = true ∧
        s.cfg.valid = true ∧ s.ctx.bidx.toNat < 8 ∧ s.ctx.carIndex ≠ 7 ∧ s.cancel = true ∧
        s.ctx.bidx ≠ 0 ∧ fetchKey { s with choice := s.choice + 1 } = .ready 0b010101) ∧
    (let s := poised 0xF 20930 [60];
      s.held = false ∧ decodeKey 0b111101 = .ok .halted ∧ s.st = St.halted ∧ s.Safe ∧
        (0b111101#6).extractLsb' 2 4 = s.st) :=
  ⟨⟨rfl, rfl, by decide, rfl, by decide⟩,
    ⟨rfl, rfl, rfl, by decide, by decide, by decide, rfl, by decide, by decide⟩,
    ⟨rfl, rfl, rfl, by decide, rfl⟩⟩

theorem witness_WhereTheBlockHasNoStep :
    ((poised 0xF 0 []).st = St.halted ∧ (poised 0xF 0 []).Safe) ∧
    (let s := { poised 0xF 1000 [] with hcause := .edgeFault };
      s.held = false ∧ s.st = St.halted ∧ s.hcause = .edgeFault) ∧ (hostHoldReset State.reset).held = true ∧
    ((poised 0xA 0 []).held = false ∧ 0xA ≤ (poised 0xA 0 []).st.toNat ∧
      (poised 0xA 0 []).st.toNat ≤ 0xE) ∧
    (let s := { poised 9 0 [] with cfg.min1 := 0 };
      s.held = false ∧ s.st.toNat ≤ 9 ∧ s.cfg.valid = false) ∧
    (let s := inByte (poised 3 0 []) 0 8 0;
      s.held = false ∧ s.st.toNat ≤ 9 ∧ s.cfg.valid = true ∧ 8 ≤ s.ctx.bidx.toNat) ∧
    (let s := inPacket (poised 3 0 []) .race 7 0;
      s.held = false ∧ s.st.toNat ≤ 9 ∧ s.cfg.valid = true ∧ s.ctx.carIndex = 7) := by decide

/-- A step can be tried: what StepWithoutItsEdges asks of the state besides the cancel line. -/
abbrev AtBoundary (s : State) : Prop :=
  s.held = false ∧ s.st.toNat ≤ 9 ∧ s.cfg.valid = true ∧ s.ctx.bidx.toNat < 8 ∧ s.ctx.carIndex ≠ 7

/-- The state's step needs two edges. -/
abbrev NeedsTwo (s : State) : Prop :=
  s.st ∈ [St.packetStart, St.commandByte, St.dataStart, St.dataByte, St.checksumStart,
    St.checksumByte]

/-- Cancel lowered: no edge for a one-edge step; one of two for a two-edge step; an edge at the cursor; a
second edge at the first. -/
theorem witness_StepWithoutItsEdges :
    (let s := poised 9 20930 [];
      AtBoundary s ∧ s.cancel = false ∧ s.src.edges.length ≤ s.k) ∧
    (let s := poised 4 3640 [115];
      AtBoundary s ∧ s.cancel = false ∧ NeedsTwo s ∧ s.src.edges.length = s.k + 1) ∧
    (let s := poised 0 1000 [0];
      AtBoundary s ∧ s.cancel = false ∧ ¬ NeedsTwo s ∧ s.src.edges[s.k]? = some 1000 ∧
        (1000 : Pos) ≤ s.cur) ∧
    (let s := poised 2 1000 [60, 0];
      AtBoundary s ∧ s.cancel = false ∧ NeedsTwo s ∧ s.src.edges[s.k]? = some 1060 ∧
        s.src.edges[s.k + 1]? = some 1060) := by decide

/-- Cancel raised inside a byte: no edge; one of two; a second edge at the first. -/
theorem witness_StepWithoutItsEdges_cancel_raised :
    (let s := { inByte (poised 3 2140 []) 1910 1 0 with cancel := true };
      AtBoundary s ∧ s.cancel = true ∧ s.ctx.bidx ≠ 0 ∧ s.src.edges.length ≤ s.k) ∧
    (let s := { inByte (poised 3 2140 [115]) 1910 1 0 with cancel := true };
      AtBoundary s ∧ s.ctx.bidx ≠ 0 ∧ NeedsTwo s ∧ s.src.edges.length = s.k + 1) ∧
    (let s := { inByte (poised 3 2140 [60, 0]) 1910 1 0 with cancel := true };
      AtBoundary s ∧ s.ctx.bidx ≠ 0 ∧ NeedsTwo s ∧ s.src.edges[s.k]? = some 2200 ∧
        s.src.edges[s.k + 1]? = some 2200) := by decide

/-- Inside a byte with cancel raised a step without its edges halts with EXHAUSTED, or waits
(60_exceptions.md R248, R249, R253); the free choice of the boundary is used up (log entry 4). -/
theorem test_cancel_inside_byte_without_edges :
    let s := { inByte (poised 3 2140 [115]) 1910 1 0 with cancel := true }
    let t := { s with src.ended := true }
    stepsTo s { s with choice := 1 } = true ∧
    stepsTo t { t with st := 0xF, hcause := .exhausted, choice := 1 } = true := by decide

/-- After a cancellation and a reset the next run's free choice is not the one already asked (log
entry 4). -/
theorem test_choice_fresh_after_reset :
    let s := { poised 9 20930 [] with cancel := true, cancelDue := true }
    (match step s with
      | .next t => (hostReleaseReset (hostHoldReset t)).choice == s.choice + 1
      | _ => false) = true := by decide

theorem witness_CancellationHalts :
    let s := { poised 9 20930 [] with cancel := true, cancelDue := true }
    s.held = false ∧ s.st.toNat ≤ 9 ∧ s.cfg.valid = true ∧ s.ctx.carIndex ≠ 7 ∧
      s.cancel = true ∧ s.ctx.bidx = 0 ∧ s.cancelDue = true := by decide

theorem witness_CancellationOnlyOutsideAByte :
    let s := { poised 9 20930 [] with cancel := true, cancelDue := true }
    let t := { s with st := St.halted, hcause := .cancelled, choice := 1 }
    step s = .next t ∧ s.hcause ≠ .cancelled ∧ t.hcause = .cancelled :=
  ⟨rfl, by decide, by decide⟩

/-- The eighth bit of a byte is taken with cancel raised, and a frame is emitted. -/
theorem witness_CancellationStopsAfterATransition :
    let s := { midByte with cancel := true }
    ∃ t, Legal s ∧ s.held = false ∧ s.cancel = true ∧ step s = .next t ∧
      t.out.frames ≠ s.out.frames ∧ t.st ≠ s.st :=
  ⟨_, by decide, rfl, rfl, rfl, by decide, by decide⟩

theorem witness_StepKeepsLegal : ∃ t, Legal midByte ∧ step midByte = .next t ∧ t.st ≠ midByte.st :=
  ⟨_, by decide, rfl, by decide⟩

/-- A running state with an edge ahead, a byte in progress behind the last edge, and HALTED. -/
theorem witness_LegalStatesNeverStop :
    (let s := { State.reset with src.edges := [60, 120] };
      Legal s ∧ s.Safe ∧ CursorAtLastEdge s ∧ EdgesIncrease s) ∧
    (let s := { inByte (poised 3 120 []) 0 1 1 with k := 2, src.edges := [60, 120, 180, 240] };
      Legal s ∧ s.Safe ∧ CursorAtLastEdge s ∧ EdgesIncrease s) ∧
    (let s := { State.reset with st := St.halted, hcause := .exhausted };
      Legal s ∧ s.Safe ∧ CursorAtLastEdge s ∧ EdgesIncrease s) :=
  ⟨by decide, by decide, by decide⟩

theorem witness_StepKeepsHuntClean :
    ∃ t, CleanInHunt (poised 8 15930 [60]) ∧ step (poised 8 15930 [60]) = .next t ∧
      t.st = St.hunt :=
  ⟨_, by decide, rfl, by decide⟩

theorem witness_StepKeepsCursorAtLastEdge :
    ∃ t, CursorAtLastEdge (poised 0 0 [60]) ∧ step (poised 0 0 [60]) = .next t ∧ t.k = 1 :=
  ⟨_, by decide, rfl, by decide⟩

theorem witness_StepKeepsFramesInOrder :
    ∃ t, Legal midByte ∧ FrameOrderInv midByte ∧ step midByte = .next t ∧ t.out.frames ≠ [] :=
  ⟨_, by decide, by decide, rfl, by decide⟩

theorem witness_StepKeepsFramesWellFormed :
    ∃ t, FramesWellFormed midByte ∧ step midByte = .next t ∧ t.out.frames ≠ [] :=
  ⟨_, by decide, rfl, by decide⟩

theorem witness_PacketStartOneIsUnreachable :
    ∃ t, ZeroAhead (poised 1 1680 [115, 115]) ∧ step (poised 1 1680 [115, 115]) = .next t ∧
      t.st = St.packetStart :=
  ⟨_, fun h => absurd h (by decide), rfl, by decide⟩

theorem witness_StepFollowsTheGraph :
    ∃ t, step (poised 8 15930 [5000]) = .next t ∧
      graphEdge (poised 8 15930 [5000]).st t.st = true :=
  ⟨_, rfl, by decide⟩

theorem witness_StepAppendsAtMostOneFrame :
    ∃ t, step midByte = .next t ∧ t.out.frames.length = 1 :=
  ⟨_, rfl, by decide⟩

theorem witness_FiniteCaptureHalts :
    let s := { State.reset with src := { edges := [60, 120], ended := true } }
    Legal s ∧ CursorAtLastEdge s ∧ EdgesIncrease s ∧ s.held = false ∧ s.src.ended = true ∧
      s.st = St.hunt := by decide

/-- Two states with different histories, a different `pstart` of no counted preamble and a different
`ustart` outside a byte. -/
theorem witness_ResynchronisationForgetsThePast :
    let s := poised 0 20930 [60]
    let u := { s with pstart := 700, ustart := 15930, out := failed 1910 2565 1 4 3 }
    SameDecoding s u ∧ s ≠ u := by decide

/-- The command byte 0x02 of P1: 115 x 12, 60 x 2, 115 x 2, from 1910 to 3640. -/
theorem witness_CommandByteReceivedMsbFirst :
    let lens := [115, 115, 115, 115, 115, 115, 115, 115, 115, 115, 115, 115, 60, 60, 115, 115]
    let s := poised 3 1910 lens
    let v : BitVec 8 := 0x02
    let p : Nat → Pos := fun n => BitVec.ofNat 64 (1910 + (lens.take n).sum)
    (Ordinary s ∧ s.st = St.commandByte ∧ s.ctx.bidx = 0 ∧ s.ctx.shreg = 0 ∧ p 0 = s.cur) ∧
    (∀ n, n < 16 → s.src.edges[s.k + n]? = some (p (n + 1)) ∧ p n < p (n + 1)) ∧
    (∀ j, j < 8 →
      samples (p (2 * j)) (p (2 * j + 2)) ≤ s.cfg.maxBit.toNat ∧
      classify s.cfg (samples (p (2 * j)) (p (2 * j + 1))) false =
        (if v.getLsbD (7 - j) then .one else .zero) ∧
      classify s.cfg (samples (p (2 * j + 1)) (p (2 * j + 2))) false =
        (if v.getLsbD (7 - j) then .one else .zero)) := by
  refine ⟨by decide, by decide, by decide⟩

/-- The last position of the sample space, the first past it, and a capture that has ended. -/
theorem witness_HostDeliversEndsCancelsHolds :
    State.reset.src.ended = false ∧ 2 ^ 64 - 1 < 2 ^ 64 ∧ 2 ^ 64 ≤ 2 ^ 64 ∧
    (hostEndCapture State.reset).src.ended = true := by decide

end Sys2Proof.Tests
end

-- Proofs of the family 10_state.md
section
/-! PROOFS. The invariants of 10_state.md. What a fetched instruction keeps, how many edges it consumes and
how it leaves the PacketContext are said once each, by cases on `Runs`; the statements are assembled from
them with the inversion of `step`. -/

namespace Sys2Proof.Machine

/-! ## What a completed byte answers -/

/-- A completed command byte names the packet and expects its first data byte (42_framer.md R165). -/
theorem completeCommand_next {v : BitVec 8} {s u : State} (h : completeCommand v s = .next u) :
    u = { s with
      st := St.dataStart
      ctx := { s.ctx with
        cmd := v, mode := modeOf v, carIndex := 0
        cks := foldCommand s.cfg.cksumFormula s.ctx.cks v }
      out := (emit (commandFrame v (modeOf v) s) s).out } := by
  cases h; rfl

/-- A completed checksum byte emits its frame and waits for the packet's end (42_framer.md R171). -/
theorem completeChecksum_next {r : BitVec 8} {s u : State} (h : completeChecksum r s = .next u) :
    u = goto St.packetEnd (emit (checksumFrame r s) s) := by
  cases h; rfl

@[simp] theorem afterByteBit_k (e f : Pos) (s : State) : (afterByteBit e f s).k = s.k + 2 := by
  simp [afterByteBit]

@[simp] theorem afterByteBit_st (e f : Pos) (s : State) : (afterByteBit e f s).st = s.st := by
  simp [afterByteBit]

@[simp] theorem confirmPacketStart_st (s : State) :
    (confirmPacketStart s).st = St.commandByte := rfl

@[simp] theorem confirmDataStart_st (x : BitVec 4) (s : State) :
    (confirmDataStart x s).st = x := rfl

/-! ## The frame of a fetched instruction -/

/-- What no instruction writes: the cause of a halt, the configuration, the Edge Source, the lines the
host drives, what the model remembers of a cancellation and the marker policy. -/
structure KeepsInputs (s u : State) : Prop where
  hcause : u.hcause = s.hcause
  cfg : u.cfg = s.cfg
  src : u.src = s.src
  cancel : u.cancel = s.cancel
  cancelDue : u.cancelDue = s.cancelDue
  held : u.held = s.held
  choice : u.choice = s.choice
  policy : u.policy = s.policy

theorem KeepsInputs.trans {s t u : State} (h : KeepsInputs s t) (g : KeepsInputs t u) :
    KeepsInputs s u where
  hcause := g.hcause.trans h.hcause
  cfg := g.cfg.trans h.cfg
  src := g.src.trans h.src
  cancel := g.cancel.trans h.cancel
  cancelDue := g.cancelDue.trans h.cancelDue
  held := g.held.trans h.held
  choice := g.choice.trans h.choice
  policy := g.policy.trans h.policy

theorem keepsInputs_afterByteBit (e f : Pos) (s : State) : KeepsInputs s (afterByteBit e f s) := by
  rw [afterByteBit_eq]; constructor <;> rfl

/-- The byte states reach their two half-bits through `markByte`, which only writes `ustart`; every other
shape is a record update of other fields. -/
theorem Runs.keepsInputs {s u : State} (h : Runs s u) : KeepsInputs s u := by
  cases h with
  | byteFail e f | byteMid e f =>
    exact (keepsInputs_afterByteBit e f s).trans (by constructor <;> rfl)
  | commandDone e f b hst he hb u hu =>
    obtain rfl := completeCommand_next hu
    exact (keepsInputs_afterByteBit e f s).trans (by constructor <;> rfl)
  | dataDone e f b hst he hb u hu =>
    obtain ⟨-, x, rfl, -⟩ := completeData_next hu
    exact (keepsInputs_afterByteBit e f s).trans (by constructor <;> rfl)
  | checksumDone e f b hst he hb u hu =>
    obtain rfl := completeChecksum_next hu
    exact (keepsInputs_afterByteBit e f s).trans (by constructor <;> rfl)
  | _ => constructor <;> rfl

/-! ## The cursor -/

/-- The edges consumed from `s` to `u`: none, the next one, or the next two. -/
inductive Consumes (s u : State) : Prop where
  | none (hk : u.k = s.k) (hc : u.cur = s.cur)
  | one (e : Pos) (he : NextEdge s e) (hk : u.k = s.k + 1) (hc : u.cur = e)
  | two (e f : Pos) (he : NextEdges s e f) (hk : u.k = s.k + 2) (hc : u.cur = f)

/-- A peeked interval that is not acted on stays, a one-edge input is consumed, a bit is two edges
(42_framer.md R160). -/
theorem Runs.consumes {s u : State} (h : Runs s u) : Consumes s u := by
  cases h with
  | preambleZero | preambleFail | endGap | endFail | skipEnd => exact .none rfl rfl
  | huntOne e hst he | huntMiss e hst he | preambleOne e hst he | endOne e hst he
  | skipGap e hst he => exact .one e he rfl rfl
  | packetStart e f hst he | dataStart e f hst he | checksumStart e f hst he =>
    exact .two e f he rfl rfl
  | startFail e f kind hst he => exact .two e f he rfl rfl
  | byteFail e f kind hst he => exact .two e f he (afterByteBit_k e f s) rfl
  | byteMid e f b hst he => exact .two e f he (afterByteBit_k e f s) rfl
  | commandDone e f b hst he hb u hu =>
    obtain rfl := completeCommand_next hu
    exact .two e f he (afterByteBit_k e f s) rfl
  | dataDone e f b hst he hb u hu =>
    obtain ⟨-, x, rfl, -⟩ := completeData_next hu
    exact .two e f he (afterByteBit_k e f s) rfl
  | checksumDone e f b hst he hb u hu =>
    obtain rfl := completeChecksum_next hu
    exact .two e f he (afterByteBit_k e f s) rfl

/-- The cursor is at the last edge where it is the edge just before index `k`. -/
theorem cursorAtLastEdge_of_consumed {u : State} {j : Nat} (hk : u.k = j + 1)
    (h : u.src.edges[j]? = some u.cur) : CursorAtLastEdge u := by
  obtain ⟨hlt, -⟩ := List.getElem?_eq_some_iff.1 h
  exact ⟨by omega, by omega, fun _ => by rw [hk]; exact h⟩

theorem Consumes.cursorAtLastEdge {s u : State} (h : Consumes s u) (hi : KeepsInputs s u)
    (hs : CursorAtLastEdge s) : CursorAtLastEdge u := by
  cases h with
  | none hk hc => simpa only [CursorAtLastEdge, hk, hc, hi.src, hi.cfg] using hs
  | one e he hk hc => exact cursorAtLastEdge_of_consumed hk (by rw [hi.src, hc]; exact he.1)
  | two e f he hk hc => exact cursorAtLastEdge_of_consumed hk (by rw [hi.src, hc]; exact he.2.1)

/-! ## The PacketContext in HUNT -/

/-- Every way into HUNT clears the PacketContext, and HUNT itself never writes it
(42_framer.md R161, R162). -/
theorem Runs.hunt_ctx {s u : State} (h : Runs s u) (hu : u.st = St.hunt) :
    u.ctx = PacketContext.clear ∨ (s.st = St.hunt ∧ u.ctx = s.ctx) := by
  cases h with
  | preambleFail | startFail | byteFail | endOne | endFail | skipEnd => exact .inl rfl
  | huntOne e hst | huntMiss e hst => exact .inr ⟨hst, rfl⟩
  | preambleOne e hst | skipGap e hst => exact absurd (hst.symm.trans hu) (by decide)
  | preambleZero | packetStart | dataStart | checksumStart | endGap => simp at hu
  | byteMid e f b hst =>
    have hs : s.st = St.hunt := (afterByteBit_st e f s).symm.trans hu
    rw [hs] at hst
    exact absurd hst (by decide)
  | commandDone e f b hst he hb u hd =>
    obtain rfl := completeCommand_next hd
    simp at hu
  | dataDone e f b hst he hb u hd =>
    obtain ⟨-, x, rfl, ⟨rfl, -⟩ | ⟨rfl, -⟩⟩ := completeData_next hd <;> simp at hu
  | checksumDone e f b hst he hb u hd =>
    obtain rfl := completeChecksum_next hd
    simp at hu

/-! ## Legal states -/

theorem ne_halted_of_isRunning {x : BitVec 4} (h : isRunning x = true) : x ≠ St.halted := by
  revert x; decide

/-- Outside a byte, a legal running state has shifted in no bit (10_state.md R27). -/
theorem bidx_eq_zero_of_legal {s : State} (h : Legal s) (hr : isRunning s.st = true)
    (hb : isByteState s.st = false) : s.ctx.bidx = 0 := by
  obtain ⟨-, -, -, hbyte, -⟩ := h
  by_contra hne
  rcases hbyte hne with hb' | hh
  · rw [hb] at hb'; cases hb'
  · exact ne_halted_of_isRunning hr hh

/-- A running state outside a byte is legal when its `carIndex` is in range and its configuration and
`hcause` are those of a legal running state. -/
theorem legal_of_outsideByte {s u : State} (h : Legal s) (hr : isRunning s.st = true)
    (hi : KeepsInputs s u) (hst : isRunning u.st = true) (hb : u.ctx.bidx = 0)
    (hcar : u.ctx.carIndex.toNat ≤ 6)
    (hdata : u.st = St.dataStart ∨ u.st = St.dataByte →
      u.ctx.carIndex.toNat < expectedBytes s.cfg u.ctx.mode) : Legal u := by
  obtain ⟨-, hv, -, -, -, -, hh⟩ := h
  have hns := ne_halted_of_isRunning hr
  have hnu := ne_halted_of_isRunning hst
  refine ⟨.inl hst, hi.cfg ▸ hv, by simp [hb], fun q => absurd hb q, hcar, hi.cfg ▸ hdata, ?_⟩
  exact iff_of_true (hi.hcause.trans (hh.2 hns)) hnu

/-- HUNT with a clean PacketContext. -/
theorem legal_of_hunt {s u : State} (h : Legal s) (hr : isRunning s.st = true)
    (hi : KeepsInputs s u) (hst : u.st = St.hunt) (hctx : u.ctx = PacketContext.clear) : Legal u := by
  refine legal_of_outsideByte h hr hi (by rw [hst]; rfl) (by rw [hctx]; rfl) (by rw [hctx]; decide) ?_
  rw [hst]
  exact fun q => absurd q (by decide)

/-- A move between two states outside a byte that keeps the PacketContext and expects no data. -/
theorem legal_of_ctx_eq {s u : State} (h : Legal s) (hr : isRunning s.st = true)
    (hi : KeepsInputs s u) (hb : isByteState s.st = false) (hctx : u.ctx = s.ctx)
    (hst : isRunning u.st = true) (hdata : ¬ (u.st = St.dataStart ∨ u.st = St.dataByte)) :
    Legal u := by
  have hb0 := bidx_eq_zero_of_legal h hr hb
  have ⟨_, _, _, _, hcar, _⟩ := h
  exact legal_of_outsideByte h hr hi hst (by rw [hctx, hb0]) (by rw [hctx]; exact hcar)
    fun q => absurd q hdata

/-- A bit that does not complete its byte leaves `bidx` at most 7 (10_state.md R27). -/
theorem bidx_succ_lt {n : BitVec 4} (h : n.toNat < 8) (h8 : n + 1 ≠ 8) : (n + 1).toNat < 8 := by
  revert n; decide

/-- A bit inside a byte keeps a legal state legal: only the byte registers change. -/
theorem legal_of_byteMid {s : State} {e f : Pos} {b : BitVec 1} (h : Legal s)
    (hst : isByteState s.st = true) (h8 : s.ctx.bidx + 1 ≠ 8) :
    Legal (shiftIn b (afterByteBit e f s)) := by
  obtain ⟨hr, hv, hb, -, hcar, hdata, hh⟩ := h
  rw [afterByteBit_eq]
  exact ⟨hr, hv, bidx_succ_lt hb h8, fun _ => .inl hst, hcar, hdata, hh⟩

/-- A completed command byte starts the data bytes at index 0, below every expected count
(10_state.md R50; 42_framer.md R165, R169). -/
theorem legal_of_completeCommand {s u : State} {e f : Pos} {v : BitVec 8} (h : Legal s)
    (hr : isRunning s.st = true) (hi : KeepsInputs s u)
    (hu : completeCommand v (clearByte (afterByteBit e f s)) = .next u) : Legal u := by
  have ⟨_, hv, _⟩ := h
  obtain rfl := completeCommand_next hu
  exact legal_of_outsideByte h hr hi rfl rfl (Nat.zero_le 6) fun _ => (expectedBytes_range hv _).1

theorem carIndex_succ {n : BitVec 3} (h : n.toNat < 6) : (n + 1).toNat = n.toNat + 1 := by
  revert n; decide

/-- A completed data byte ends the data bytes exactly where `carIndex` reaches the expected count, so in
DATA_START it is still below (42_framer.md R168, R169). -/
theorem legal_of_completeData {s u : State} {e f : Pos} {v : BitVec 8} (h : Legal s)
    (hr : isRunning s.st = true) (hst : s.st = St.dataByte) (hi : KeepsInputs s u)
    (hu : completeData v (clearByte (afterByteBit e f s)) = .next u) : Legal u := by
  have ⟨_, _, _, _, _, hdata, _⟩ := h
  have hlt := hdata (.inr hst)
  rw [afterByteBit_eq] at hu
  obtain ⟨h6, x, rfl, hx⟩ := completeData_next hu
  have hn := carIndex_succ h6
  rcases hx with ⟨rfl, -⟩ | ⟨rfl, hne⟩
  · exact legal_of_outsideByte h hr hi rfl rfl (hn.trans_le h6) fun q => by simp at q
  · exact legal_of_outsideByte h hr hi rfl rfl (hn.trans_le h6) fun _ =>
      hn.trans_lt (Nat.lt_of_le_of_ne hlt hne)

/-- What every fetched instruction keeps of a legal state: it enters HUNT with a clean PacketContext,
moves outside the bytes, clears the byte registers at a start bit, shifts a bit in, or completes a
byte. -/
theorem Runs.legal {s u : State} (h : Runs s u) (hl : Legal s) (hr : isRunning s.st = true) :
    Legal u := by
  have hi := h.keepsInputs
  have ⟨_, _, _, _, hcar, hdata, _⟩ := hl
  cases h with
  | preambleFail | startFail | byteFail | endOne | endFail | skipEnd =>
    exact legal_of_hunt hl hr hi rfl rfl
  | huntOne e hst he hc =>
    refine legal_of_ctx_eq hl hr hi (by rw [hst]; rfl) rfl ?_ ?_
    all_goals
      simp only [countPreamble_st, edgePop_st, hst]
      split <;> decide
  | huntMiss e hst | preambleOne e hst | skipGap e hst =>
    have hb : isByteState s.st = false := by rw [hst]; rfl
    exact legal_of_ctx_eq hl hr hi hb rfl hr fun q => by simp [hst] at q
  | preambleZero e hst | endGap e hst =>
    have hb : isByteState s.st = false := by rw [hst]; rfl
    exact legal_of_ctx_eq hl hr hi hb rfl rfl fun q => by simp at q
  | packetStart | checksumStart =>
    exact legal_of_outsideByte hl hr hi rfl rfl hcar fun q => by simp at q
  | dataStart e f hst =>
    exact legal_of_outsideByte hl hr hi rfl rfl hcar fun _ => hdata (.inl hst)
  | byteMid e f b hst he h8 => exact legal_of_byteMid hl hst h8
  | commandDone e f b hst he hb u hu => exact legal_of_completeCommand hl hr hi hu
  | dataDone e f b hst he hb u hu => exact legal_of_completeData hl hr hst hi hu
  | checksumDone e f b hst he hb u hu =>
    rw [afterByteBit_eq] at hu
    obtain rfl := completeChecksum_next hu
    exact legal_of_outsideByte hl hr hi rfl rfl hcar fun q => by simp at q

/-- A legal block that halts stays legal, whatever the cause (60_exceptions.md R250). -/
theorem legal_halt {s : State} {c : HaltCause} (h : Legal s) (hc : c ≠ .none) : Legal (halt c s) := by
  obtain ⟨-, hv, hb, -, hcar, -, -⟩ := h
  exact ⟨.inr rfl, hv, hb, fun _ => .inr rfl, hcar, fun q => by simp at q,
    iff_of_false hc (not_not_intro rfl)⟩

/-! ## The statements -/

/-- What holds of a step's state where it stays, where its free choice is used up, where it halts and where
its fetched instruction runs holds of the state the step answers. -/
theorem step_keeps {P : State → Prop} {s t : State} (h : step s = .next t) (hs : P s)
    (hchoice : P (nextChoice s)) (hhalt : ∀ c, c ≠ .none → P (halt c (nextChoice s)))
    (hrun : ∀ u, isRunning s.st = true → Runs (nextChoice s) u →
      P (noteTransition (nextChoice s) u)) : P t := by
  rcases step_next h with ⟨-, rfl⟩ | ⟨-, -, hr, -, -, ⟨-, rfl⟩ | ⟨-, hcase⟩⟩
  · exact hs
  · exact hhalt _ nofun
  · rcases hcase with ⟨-, rfl⟩ | ⟨-, rfl⟩ | ⟨-, rfl⟩ | ⟨i, u, hf, hu, rfl⟩
    · exact hhalt _ nofun
    · exact hchoice
    · exact hhalt _ nofun
    · exact hrun u hr (exec_runs hr hf hu)

/-- Settles O46: the halts keep every register but `st` and `hcause`, and every shape in which an
instruction runs keeps a legal state legal. `Legal` reads neither `choice` nor `cancelDue`. -/
theorem stepKeepsLegal : Obligations.StepKeepsLegal := by
  intro s t hl h
  have hn : Legal (nextChoice s) := hl
  exact step_keeps h hl hn (fun _ hc => legal_halt hn hc) fun _ hr hu => hu.legal hn hr

/-- Settles O48: a halt is not in HUNT, and an instruction that ends in HUNT came there with the
PacketContext cleared or never left. -/
theorem stepKeepsHuntClean : Obligations.StepKeepsHuntClean := by
  intro s t hs h
  refine step_keeps h hs hs (fun _ _ hst => by simp at hst) fun u _ hu hst => ?_
  rcases hu.hunt_ctx hst with hc | ⟨hst', hc⟩
  · exact hc
  · exact hc.trans (hs hst')

/-- Settles O49: only an instruction that consumes edges moves the cursor, and it moves it to the last of
them. -/
theorem stepKeepsCursorAtLastEdge : Obligations.StepKeepsCursorAtLastEdge := by
  intro s t hs h
  exact step_keeps h hs hs (fun _ _ => hs) fun _ _ hu =>
    hu.consumes.cursorAtLastEdge hu.keepsInputs hs

/-- Settles O5, register by register. -/
theorem resetValues : Obligations.ResetValues :=
  ⟨rfl, rfl, rfl, rfl, rfl, rfl, rfl, rfl, rfl, rfl, rfl, rfl⟩

/-- Settles O53: reset is HUNT with a clean PacketContext, no edge and no frame. -/
theorem resetMeetsTheInvariants : Obligations.ResetMeetsTheInvariants := by
  have hlegal : Legal State.reset := by decide
  have hcursor : CursorAtLastEdge State.reset := ⟨Nat.zero_le 0, fun _ => rfl, nofun⟩
  have hframes : FrameOrderInv State.reset := by decide
  have hzero : ZeroAhead State.reset := fun h => absurd h (by decide)
  exact ⟨hlegal, fun _ => rfl, hcursor, hframes, nofun, hzero, nofun, List.pairwise_singleton _ _⟩

end Sys2Proof.Machine
end

-- Proofs of the family 20_memory.md
section
/-! PROOFS. The statements of 20_memory.md. What a fetched instruction emits is said once, by cases on
`Runs`: nothing, or one frame that starts where a unit in progress starts and ends at or after the cursor.
The order of the frames and the frame of a whole step follow from that. -/

namespace Sys2Proof.Machine

/-! ## The unit in progress -/

/-- The half-bits of a preamble are being counted, so `pstart` is where it began (10_state.md R24). -/
abbrev CountsPreamble (s : State) : Prop := s.st = St.preamble ∨ (s.st = St.hunt ∧ s.pcnt ≠ 0)

/-- Where a frame emitted next can start: at the cursor, where the counted preamble began, or where the
byte in progress began. -/
inductive StartsUnit (s : State) : Pos → Prop where
  | cursor : StartsUnit s s.cur
  | preamble (h : CountsPreamble s) : StartsUnit s s.pstart
  | byte (h : s.ctx.bidx ≠ 0) : StartsUnit s s.ustart

/-- The order invariant in terms of the units in progress: each starts at or after every frame and at or
before the cursor. -/
theorem frameOrderInv_iff (s : State) :
    FrameOrderInv s ↔
      FramesInOrder s ∧ ∀ p, StartsUnit s p → StartsUpTo s p ∧ p ≤ s.cur := by
  constructor
  · rintro ⟨hord, hcur, hpre, hbyte⟩
    refine ⟨hord, fun p hp => ?_⟩
    cases hp with
    | cursor => exact ⟨hcur, BitVec.le_refl _⟩
    | preamble h => exact hpre h
    | byte h => exact hbyte h
  · rintro ⟨hord, hunit⟩
    exact ⟨hord, (hunit _ .cursor).1, fun h => hunit _ (.preamble h), fun h => hunit _ (.byte h)⟩

@[simp] theorem afterByteBit_out (e f : Pos) (s : State) : (afterByteBit e f s).out = s.out := by
  simp [afterByteBit]

/-- The byte that a bit belongs to starts at its first bit (10_state.md R25). -/
theorem startsUnit_afterByteBit (e f : Pos) (s : State) :
    StartsUnit s (afterByteBit e f s).ustart := by
  rw [afterByteBit_eq]
  dsimp only
  split
  · exact .cursor
  · exact .byte ‹_›

theorem cur_le_of_nextEdge {s : State} {e : Pos} (h : NextEdge s e) : s.cur ≤ e :=
  BitVec.le_of_lt h.2

theorem cur_le_of_nextEdges {s : State} {e f : Pos} (h : NextEdges s e f) : s.cur ≤ f := by
  obtain ⟨-, -, hce, hef⟩ := h
  exact BitVec.le_of_lt (BitVec.lt_trans hce hef)

/-! ## What a fetched instruction emits -/

/-- What is emitted from `s` to `u`: nothing, or one frame from the start of a unit in progress to the
cursor or a later edge (20_memory.md R70, R74). -/
inductive Emits (s u : State) : Prop where
  | none (ho : u.out = s.out)
  | one (f : Frame) (ho : u.out = afterEmit s f) (hstart : StartsUnit s f.startSample)
      (hend : s.cur ≤ f.endSample)

theorem afterEmit_afterByteBit (e f : Pos) (s : State) (fr : Frame) :
    afterEmit (afterByteBit e f s) fr = afterEmit s fr := by
  simp [afterEmit, afterByteBit]

/-- A frame of a byte state spans from the start of its byte to the second edge of the bit that ends it. -/
theorem emits_of_byteFrame {s u : State} {e f : Pos} {fr : Frame} (he : NextEdges s e f)
    (ho : u.out = afterEmit (afterByteBit e f s) fr)
    (hstart : fr.startSample = (afterByteBit e f s).ustart) (hend : fr.endSample = f) :
    Emits s u :=
  .one fr (ho.trans (afterEmit_afterByteBit e f s fr)) (hstart ▸ startsUnit_afterByteBit e f s)
    (hend ▸ cur_le_of_nextEdges he)

/-- HUNT, GAP_SKIP, a counted preamble half-bit and a bit inside a byte emit nothing; every other shape
emits the frame of the unit it ends (42_framer.md R162 to R173). -/
theorem Runs.emits {s u : State} (h : Runs s u) : Emits s u := by
  cases h with
  | huntOne | huntMiss | preambleOne | skipGap | skipEnd => exact .none rfl
  | byteMid e f => exact .none (afterByteBit_out e f s)
  | preambleZero e hst => exact .one _ rfl (.preamble (.inl hst)) (BitVec.le_refl _)
  | preambleFail e kind hst he =>
    exact .one _ rfl (.preamble (.inl hst)) (cur_le_of_nextEdge he)
  | endGap e hst he | endOne e hst he | endFail e kind hst he =>
    exact .one _ rfl .cursor (cur_le_of_nextEdge he)
  | packetStart e f hst he | dataStart e f hst he | checksumStart e f hst he
  | startFail e f kind hst he => exact .one _ rfl .cursor (cur_le_of_nextEdges he)
  | byteFail e f kind hst he => exact emits_of_byteFrame he rfl rfl rfl
  | commandDone e f b hst he hb u hu =>
    obtain rfl := completeCommand_next hu
    exact emits_of_byteFrame he rfl rfl rfl
  | dataDone e f b hst he hb u hu =>
    obtain ⟨-, x, rfl, -⟩ := completeData_next hu
    exact emits_of_byteFrame he rfl rfl rfl
  | checksumDone e f b hst he hb u hu =>
    obtain rfl := completeChecksum_next hu
    exact emits_of_byteFrame he rfl rfl rfl

/-! ## The order of the frames -/

/-- Edges are consumed in order, so the cursor never moves back (10_state.md R22). -/
theorem Consumes.cur_le {s u : State} (h : Consumes s u) : s.cur ≤ u.cur := by
  cases h with
  | none hk hc => exact hc ▸ BitVec.le_refl _
  | one e he hk hc => exact hc ▸ cur_le_of_nextEdge he
  | two e f he hk hc => exact hc ▸ cur_le_of_nextEdges he

/-- Emission keeps the frames in order, and starts none after the cursor it began at. -/
theorem Emits.framesInOrder {s u : State} (h : Emits s u) (hi : FrameOrderInv s) :
    FramesInOrder u ∧ StartsUpTo u s.cur := by
  obtain ⟨hord, hunit⟩ := (frameOrderInv_iff s).1 hi
  obtain ⟨hcur, -⟩ := hunit _ .cursor
  cases h with
  | none ho => exact ⟨by rwa [FramesInOrder, ho], by rwa [StartsUpTo, ho]⟩
  | one f ho hstart hend =>
    obtain ⟨hbefore, hle⟩ := hunit _ hstart
    have hframes : u.out.frames = s.out.frames ++ [f] := by rw [ho]; rfl
    obtain ⟨hpair, hspan⟩ := hord
    rw [FramesInOrder, StartsUpTo, hframes]
    refine ⟨⟨List.pairwise_append.2 ⟨hpair, List.pairwise_singleton _ f, ?_⟩, ?_⟩, ?_⟩
    · exact fun g hg x hx => List.mem_singleton.1 hx ▸ hbefore g hg
    · exact List.forall_mem_append.2
        ⟨hspan, List.forall_mem_singleton.2 (BitVec.le_trans hle hend)⟩
    · exact List.forall_mem_append.2 ⟨hcur, List.forall_mem_singleton.2 hle⟩

theorem not_countsPreamble_of_isByteState {s : State} (h : isByteState s.st = true) :
    ¬ CountsPreamble s := by
  rintro (hst | ⟨hst, -⟩) <;> rw [hst] at h <;> exact absurd h (by decide)

/-- The preamble counted after a fetched instruction began at the cursor, or is the one counted before it
and nothing was emitted (42_framer.md R162, R163, R172). -/
theorem Runs.pstart_of_countsPreamble {s u : State} (h : Runs s u) (hc : CountsPreamble u) :
    u.pstart = s.cur ∨ (u.out = s.out ∧ StartsUnit s u.pstart) := by
  cases h with
  | endOne => exact .inl rfl
  | preambleOne e hst => exact .inr ⟨rfl, .preamble (.inl hst)⟩
  | huntOne e hst =>
    rw [countPreamble_pstart]
    split
    · exact .inl rfl
    · exact .inr ⟨rfl, .preamble (.inr ⟨hst, ‹_›⟩)⟩
  | huntMiss e hst | skipGap e hst => simp [CountsPreamble, hst] at hc
  | preambleZero | preambleFail | packetStart | dataStart | checksumStart | startFail | byteFail
  | endGap | endFail | skipEnd => simp [CountsPreamble, raiseError, bitFail] at hc
  | byteMid e f b hst =>
    have hu : isByteState (shiftIn b (afterByteBit e f s)).st = true := by simpa using hst
    exact absurd hc (not_countsPreamble_of_isByteState hu)
  | commandDone e f b hst he hb u hu =>
    obtain rfl := completeCommand_next hu
    simp [CountsPreamble] at hc
  | dataDone e f b hst he hb u hu =>
    obtain ⟨-, x, rfl, ⟨rfl, -⟩ | ⟨rfl, -⟩⟩ := completeData_next hu <;> simp [CountsPreamble] at hc
  | checksumDone e f b hst he hb u hu =>
    obtain rfl := completeChecksum_next hu
    simp [CountsPreamble] at hc

/-- Only a bit that does not complete its byte leaves a byte in progress, and it emits nothing
(41_bit_assembler.md R143). -/
theorem Runs.ustart_of_inByte {s u : State} (h : Runs s u) (hl : Legal s)
    (hr : isRunning s.st = true) (hb : u.ctx.bidx ≠ 0) :
    u.out = s.out ∧ StartsUnit s u.ustart := by
  cases h with
  | byteMid e f => exact ⟨afterByteBit_out e f s, startsUnit_afterByteBit e f s⟩
  | huntOne e hst | huntMiss e hst | preambleOne e hst | preambleZero e hst | endGap e hst
  | skipGap e hst =>
    exact absurd (bidx_eq_zero_of_legal hl hr (by rw [hst]; rfl)) hb
  | preambleFail | packetStart | dataStart | checksumStart | startFail | byteFail | endOne
  | endFail | skipEnd => exact absurd rfl hb
  | commandDone e f b hst he h8 u hu =>
    obtain rfl := completeCommand_next hu
    exact absurd rfl hb
  | dataDone e f b hst he h8 u hu =>
    obtain ⟨-, x, rfl, -⟩ := completeData_next hu
    exact absurd rfl hb
  | checksumDone e f b hst he h8 u hu =>
    obtain rfl := completeChecksum_next hu
    exact absurd rfl hb

/-- Every unit in progress after a fetched instruction starts at the cursor before or after it, or was in
progress already and nothing was emitted. -/
theorem Runs.startsUnit {s u : State} {p : Pos} (h : Runs s u) (hl : Legal s)
    (hr : isRunning s.st = true) (hp : StartsUnit u p) :
    p = u.cur ∨ p = s.cur ∨ (u.out = s.out ∧ StartsUnit s p) := by
  cases hp with
  | cursor => exact .inl rfl
  | preamble hc => exact .inr (h.pstart_of_countsPreamble hc)
  | byte hb => exact .inr (.inr (h.ustart_of_inByte hl hr hb))

theorem StartsUpTo.mono {s : State} {p q : Pos} (h : StartsUpTo s p) (hpq : p ≤ q) :
    StartsUpTo s q := fun f hf => BitVec.le_trans (h f hf) hpq

theorem Runs.frameOrderInv {s u : State} (h : Runs s u) (hl : Legal s)
    (hr : isRunning s.st = true) (hi : FrameOrderInv s) : FrameOrderInv u := by
  obtain ⟨hord, hcur⟩ := h.emits.framesInOrder hi
  have hle := h.consumes.cur_le
  refine (frameOrderInv_iff u).2 ⟨hord, fun p hp => ?_⟩
  rcases h.startsUnit hl hr hp with rfl | rfl | ⟨ho, hp⟩
  · exact ⟨StartsUpTo.mono hcur hle, BitVec.le_refl _⟩
  · exact ⟨hcur, hle⟩
  · obtain ⟨hbefore, hps⟩ := ((frameOrderInv_iff s).1 hi).2 p hp
    exact ⟨by rwa [StartsUpTo, ho], BitVec.le_trans hps hle⟩

/-- A halt emits nothing and ends the counting of a preamble (60_exceptions.md R250). -/
theorem frameOrderInv_halt {s : State} (c : HaltCause) (h : FrameOrderInv s) :
    FrameOrderInv (halt c s) := by
  obtain ⟨hord, hcur, -, hbyte⟩ := h
  exact ⟨hord, hcur, fun q => by simp at q, hbyte⟩

/-- Settles O50: a frame starts where a unit in progress starts, which lies at or after every frame so
far, and ends at or after the cursor. -/
theorem stepKeepsFramesInOrder : Obligations.StepKeepsFramesInOrder := by
  intro s t hl hi h
  have hln : Legal (nextChoice s) := hl
  have hin : FrameOrderInv (nextChoice s) := hi
  exact step_keeps h hi hin (fun c _ => frameOrderInv_halt c hin) fun _ hr hu =>
    hu.frameOrderInv hln hr hin

/-! ## What a step leaves unchanged -/

/-- The configuration, the Edge Source, the lines the host drives and the marker policy are as they
were. -/
structure KeepsHostSide (s t : State) : Prop where
  cfg : t.cfg = s.cfg
  src : t.src = s.src
  cancel : t.cancel = s.cancel
  held : t.held = s.held
  policy : t.policy = s.policy

theorem KeepsInputs.hostSide {s u : State} (h : KeepsInputs s u) : KeepsHostSide s u :=
  ⟨h.cfg, h.src, h.cancel, h.held, h.policy⟩

theorem step_keepsHostSide {s t : State} (h : step s = .next t) : KeepsHostSide s t :=
  step_keeps h ⟨rfl, rfl, rfl, rfl, rfl⟩ ⟨rfl, rfl, rfl, rfl, rfl⟩
    (fun _ _ => ⟨rfl, rfl, rfl, rfl, rfl⟩) fun _ _ hu =>
      have ⟨hcfg, hsrc, hcancel, hheld, hpolicy⟩ := hu.keepsInputs.hostSide
      ⟨hcfg, hsrc, hcancel, hheld, hpolicy⟩

/-! Neither the counter of free choices nor the note of a transition has a part in what is emitted and
consumed, so what the instruction emits and consumes is what the step does. -/

theorem StartsUnit.of_nextChoice {s : State} {p : Pos} (h : StartsUnit (nextChoice s) p) :
    StartsUnit s p := by
  cases h with
  | cursor => exact .cursor
  | preamble h => exact .preamble h
  | byte h => exact .byte h

theorem Emits.of_nextChoice {s u : State} (h : Emits (nextChoice s) u) :
    Emits s (noteTransition (nextChoice s) u) := by
  cases h with
  | none ho => exact .none ho
  | one f ho hstart hend => exact .one f ho hstart.of_nextChoice hend

theorem step_emits {s t : State} (h : step s = .next t) : Emits s t :=
  step_keeps h (.none rfl) (.none rfl) (fun _ _ => .none rfl) fun _ _ hu => hu.emits.of_nextChoice

theorem Consumes.of_nextChoice {s u : State} (h : Consumes (nextChoice s) u) :
    Consumes s (noteTransition (nextChoice s) u) := by
  cases h with
  | none hk hc => exact .none hk hc
  | one e he hk hc => exact .one e he hk hc
  | two e f he hk hc => exact .two e f he hk hc

theorem step_consumes {s t : State} (h : step s = .next t) : Consumes s t :=
  step_keeps h (.none rfl rfl) (.none rfl rfl) (fun _ _ => .none rfl rfl) fun _ _ hu =>
    hu.consumes.of_nextChoice

/-- An emission appends at most one frame, its markers and one commit for it. -/
theorem Emits.appends {s u : State} (h : Emits s u) :
    ∃ fs : List Frame, fs.length ≤ 1 ∧ u.out.frames = s.out.frames ++ fs ∧
      u.out.markers = s.out.markers ++ fs.flatMap (markersOf s.policy) ∧
      u.out.commits = s.out.commits + fs.length := by
  cases h with
  | none ho => exact ⟨[], by simp [ho]⟩
  | one f ho => exact ⟨[f], by simp [ho, afterEmit]⟩

theorem Consumes.k_le {s u : State} (h : Consumes s u) : s.k ≤ u.k ∧ u.k ≤ s.k + 2 := by
  cases h <;> omega

/-- Settles O55: a step emits at most one frame, consumes at most two edges in order and keeps the host's
side, whether it stays, halts or runs an instruction. -/
theorem stepAppendsAtMostOneFrame : Obligations.StepAppendsAtMostOneFrame := by
  intro s t h
  obtain ⟨hk, hk2⟩ := (step_consumes h).k_le
  obtain ⟨hcfg, hsrc, hcancel, hheld, hpolicy⟩ := step_keepsHostSide h
  exact ⟨(step_emits h).appends, hk, hk2, (step_consumes h).cur_le, hcfg, hsrc, hcancel, hheld,
    hpolicy⟩

/-! ## A step without its edges -/

/-- Where nothing stops the block and no cancellation is taken, the step is the common beginning and the
fetched key, with the free choice used up where cancel is raised (60_exceptions.md R248, R253). -/
theorem step_of_not_cancelTaken {s : State} (hheld : s.held = false)
    (hr : isRunning s.st = true) (hv : s.cfg.valid = true) (hb : s.ctx.bidx.toNat < 8)
    (hcar : s.ctx.carIndex ≠ 7) (hc : cancelTaken s = false) :
    step s = whenReady (fetchKey (nextChoice s)) (nextChoice s) (runKey (nextChoice s)) := by
  have hst : s.st ≠ St.halted := ne_halted_of_isRunning hr
  have hstuck : isStuck s = false := by
    rw [isStuck, decide_eq_false (Nat.not_le.2 hb), beq_false_of_ne hcar]; rfl
  simp only [step, hheld, edgeFaulted_of_running hst, if_neg hst, hr, hv, hstuck, hc,
    Bool.false_eq_true, Bool.not_true, if_false]

/-- With cancel lowered, inside a byte, or with the halt neither forced nor chosen, no cancellation is
taken (60_exceptions.md R248). -/
theorem cancelTaken_eq_false {s : State}
    (h : s.cancel = false ∨ s.ctx.bidx ≠ 0 ∨
      (s.cancelDue = false ∧ Config.cancelNow s.choice = false)) : cancelTaken s = false := by
  rcases h with h | h | ⟨hdue, hnow⟩
  · exact cancelTaken_of_cancel_false h
  · rw [cancelTaken, beq_false_of_ne h, Bool.and_false, Bool.false_and]
  · simp [cancelTaken, hdue, hnow]

theorem mem_bitStates_iff (st : BitVec 4) :
    st ∈ [St.packetStart, St.commandByte, St.dataStart, St.dataByte, St.checksumStart,
      St.checksumByte] ↔ needsTwoEdges st = true := by
  revert st; decide

/-- An edge that a step needs and that is not delivered is known not to exist where the capture has ended,
and is waited for where it has not; the order of the edges is not looked at
(20_memory.md R64, R65; 60_exceptions.md R253). -/
theorem fetchKey_of_missing {s : State}
    (h : s.src.edges.length ≤ s.k ∨
      (needsTwoEdges s.st = true ∧ s.src.edges.length = s.k + 1)) :
    fetchKey s = if s.src.ended then .exhausted else .waiting := by
  unfold fetchKey
  split
  · rw [supplyTwo_of_none s (List.getElem?_eq_none (by omega))]
    cases s.src.ended <;> rfl
  · rename_i hn
    have hk : s.src.edges.length ≤ s.k := h.resolve_right fun hh => hn hh.1
    rw [supplyOne_of_none s (List.getElem?_eq_none hk)]
    cases s.src.ended <;> rfl

/-- The next edge of a one-edge state at or before the cursor is an edge fault (60_exceptions.md R251). -/
theorem fetchKey_of_late_one {s : State} {e : Pos} (hn : ¬ needsTwoEdges s.st = true)
    (he : s.src.edges[s.k]? = some e) (hle : e ≤ s.cur) : fetchKey s = .edgeFault := by
  rw [fetchKey, if_neg hn, supplyOne_of_late s e he (BitVec.not_lt.2 hle)]; rfl

/-- Two next edges of a two-edge state that are not in order are an edge fault (60_exceptions.md R251). -/
theorem fetchKey_of_late_two {s : State} {e f : Pos} (hn : needsTwoEdges s.st = true)
    (he : s.src.edges[s.k]? = some e) (hf : s.src.edges[s.k + 1]? = some f)
    (hle : e ≤ s.cur ∨ f ≤ e) : fetchKey s = .edgeFault := by
  have hlate : ¬ (s.cur < e ∧ e < f) := by
    rintro ⟨hce, hef⟩
    exact hle.elim (BitVec.not_le.2 hce) (BitVec.not_le.2 hef)
  rw [fetchKey, if_pos hn, supplyTwo_of_some s e f he hf, if_neg hlate]; rfl

theorem whenReady_missing {α : Type} (b : Bool) (s : State) (run : α → StepResult) :
    whenReady (if b then .exhausted else .waiting) s run =
      .next (if b then halt .exhausted s else s) := by
  cases b <;> rfl

/-- Settles O42: without a cancellation the step is what its fetch answers, and the fetch answers one of
the three stops before any instruction runs. -/
theorem stepWithoutItsEdges : Obligations.StepWithoutItsEdges := by
  intro s hheld hst hv hb hcar hcancel u two
  have htwo : two ↔ needsTwoEdges s.st = true := mem_bitStates_iff s.st
  have hstep := step_of_not_cancelTaken hheld (decide_eq_true hst) hv hb hcar
    (cancelTaken_eq_false hcancel)
  refine ⟨fun h => ?_, fun e hn he hle => ?_, fun e f hn he hf hle => ?_⟩
  · rw [htwo] at h
    rw [hstep, fetchKey_of_missing (s := nextChoice s) h, whenReady_missing]; rfl
  · rw [htwo] at hn
    rw [hstep, fetchKey_of_late_one (s := nextChoice s) hn he hle]; rfl
  · rw [htwo] at hn
    rw [hstep, fetchKey_of_late_two (s := nextChoice s) hn he hf hle]; rfl

/-! ## Emission and the host's port -/

/-- The default policy marks the two ends of an ERROR frame (20_memory.md R72). -/
theorem defaultMarkers_of_error {f : Frame} (h : f.frameType = .error) :
    defaultMarkers f =
      [{ position := f.startSample, kind := .start }, { position := f.endSample, kind := .stop }] := by
  rw [defaultMarkers, h]

/-- The default policy marks no frame but an ERROR frame (20_memory.md R72). -/
theorem defaultMarkers_of_ne_error {f : Frame} (h : f.frameType ≠ .error) :
    defaultMarkers f = [] := by
  unfold defaultMarkers
  split
  · exact absurd ‹_› h
  · rfl

/-- Settles O12: `emit` is that one update of the output history, and the policy of a state without a
number is the default one. -/
theorem emitIsOneAppend : Obligations.EmitIsOneAppend := by
  intro f s
  refine ⟨rfl, fun hp hf => ?_, fun hp hf => ?_⟩ <;> rw [hp, markersOf]
  · exact defaultMarkers_of_error hf
  · exact defaultMarkers_of_ne_error hf

/-- Settles O60: a delivery is decided by the end of the capture and by the bound of a position; the
other three actions are one update each. -/
theorem hostDeliversEndsCancelsHolds : Obligations.HostDeliversEndsCancelsHolds := by
  intro s p
  refine ⟨fun hopen hp => ?_, fun hopen hp => ?_, fun hended => ?_, rfl, rfl, rfl⟩
  · rw [hostDeliver_eq p s hopen, if_pos hp, ← hopen]
  · rw [hostDeliver_eq p s hopen, if_neg (Nat.not_lt.2 hp)]
  · rw [hostDeliver, if_pos hended]

end Sys2Proof.Machine
end

-- Proofs of the family 30_encoding.md
section
/-! PROOFS. The statements of 30_encoding.md. That every kind of frame is well-formed is said once for each
function that makes one; the invariant follows by cases on `Runs`, with the inversion of `step`. The
decoder, the keys a state fetches, the packed records and the configuration registers follow in the order
of the model. -/

namespace Sys2Proof.Machine

/-! ## The frames the block makes are well-formed -/

/-- The mode a COMMAND frame carries is the mode of the byte it carries (30_encoding.md R96, R99). -/
theorem modeOf_code (v : BitVec 8) :
    (modeOf v).code = if v = 0x02 then 2 else if v = 0x01 then 1 else 0 := by
  unfold modeOf
  split
  · rfl
  · split <;> rfl

/-- A byte widened to a record word is a byte. -/
theorem toNat_setWidth_byte_lt (v : BitVec 8) : (v.setWidth 64).toNat < 256 := by
  rw [BitVec.toNat_setWidth_of_le (by decide)]
  exact v.isLt

/-- Widening loses nothing: a widened byte is a number exactly where the byte is. -/
theorem setWidth_byte_inj {v w : BitVec 8} : v.setWidth 64 = w.setWidth 64 ↔ v = w := by
  simp only [← BitVec.toNat_inj, BitVec.toNat_setWidth_of_le (show 8 ≤ 64 by decide)]

/-! `Frame.wf` for each type of frame that carries a payload (30_encoding.md R99). -/

theorem Frame.wf_preamble_iff {f : Frame} (h : f.frameType = .preamble) :
    f.wf = true ↔ f.flags = 0 ∧ f.data2.toNat < 2 ^ 32 ∧ f.data1 = f.data2 >>> 1 := by
  simp [Frame.wf, h, and_assoc]

theorem Frame.wf_command_iff {f : Frame} (h : f.frameType = .command) :
    f.wf = true ↔ f.flags = 0 ∧ f.data1.toNat < 256 ∧
      f.data2 = if f.data1 = 2 then 2 else if f.data1 = 1 then 1 else 0 := by
  simp [Frame.wf, h, and_assoc]

theorem Frame.wf_carData_iff {f : Frame} (h : f.frameType = .carData) :
    f.wf = true ↔ f.flags = 0 ∧ f.data1.toNat < 256 ∧ 1 ≤ f.data2.toNat ∧ f.data2.toNat ≤ 6 := by
  simp [Frame.wf, h, and_assoc]

theorem Frame.wf_checksum_iff {f : Frame} (h : f.frameType = .checksum) :
    f.wf = true ↔ f.data1.toNat < 256 ∧ f.data2.toNat < 256 ∧
      f.flags = if f.data1 = f.data2 then 0b0000 else 0b1000 := by
  simp [Frame.wf, h, and_assoc]

/-- Whole bits are half the half-bits counted (30_encoding.md R99). -/
theorem preambleFrame_wf (s : State) : (preambleFrame s).wf = true := by
  have hcount : (s.pcnt.setWidth 64).toNat < 2 ^ 32 := by
    rw [BitVec.toNat_setWidth_of_le (by decide)]
    exact s.pcnt.isLt
  have hhalf : (s.pcnt >>> 1).setWidth 64 = s.pcnt.setWidth 64 >>> 1 := by
    apply BitVec.eq_of_toNat_eq
    simp only [BitVec.toNat_ushiftRight, BitVec.toNat_setWidth_of_le (show 32 ≤ 64 by decide)]
  exact (Frame.wf_preamble_iff rfl).2 ⟨rfl, hcount, hhalf⟩

/-- The frames without a payload are PSBIT, DSBIT and PEBIT (30_encoding.md R99). -/
theorem bareFrame_wf {t : FrameType} (ht : t = .psbit ∨ t = .dsbit ∨ t = .pebit) (a b : Pos) :
    (bareFrame t a b).wf = true := by
  rcases ht with rfl | rfl | rfl <;> rfl

/-- The mode of a COMMAND frame is read off the widened byte (30_encoding.md R96). -/
theorem commandFrame_wf (v : BitVec 8) (s : State) : (commandFrame v (modeOf v) s).wf = true := by
  have h2 : v.setWidth 64 = (2 : Word64) ↔ v = 0x02 := setWidth_byte_inj (w := 0x02)
  have h1 : v.setWidth 64 = (1 : Word64) ↔ v = 0x01 := setWidth_byte_inj (w := 0x01)
  refine (Frame.wf_command_iff rfl).2 ⟨rfl, toNat_setWidth_byte_lt v, ?_⟩
  simp only [commandFrame, modeOf_code, h2, h1, apply_ite (BitVec.setWidth 64)]
  rfl

/-- The 1-based index of a stored data byte is 1 to 6 (30_encoding.md R99, R107). -/
theorem carDataFrame_wf (v : BitVec 8) {s : State} (h : s.ctx.carIndex.toNat < 6) :
    (carDataFrame v s).wf = true := by
  have hindex : (carDataFrame v s).data2.toNat = s.ctx.carIndex.toNat + 1 := by
    rw [carDataFrame, BitVec.toNat_add, BitVec.toNat_setWidth_of_le (by decide)]
    exact Nat.mod_eq_of_lt (by simp; omega)
  exact (Frame.wf_carData_iff rfl).2 ⟨rfl, toNat_setWidth_byte_lt v, by omega, by omega⟩

/-- CHECKSUM_ERROR is set exactly where the received byte is not the computed one
(43_checksum.md R224). -/
theorem checksumFrame_wf (r : BitVec 8) (s : State) : (checksumFrame r s).wf = true := by
  refine (Frame.wf_checksum_iff rfl).2 ⟨toNat_setWidth_byte_lt r, toNat_setWidth_byte_lt _, ?_⟩
  simp only [checksumFrame, cksCheck, setWidth_byte_inj]

/-- The errors a state can detect (60_exceptions.md R241). -/
inductive Detects : BitVec 4 → ErrorKind → Prop where
  | preamble {kind : ErrorKind} (hk : kind = .unexpectedGap ∨ kind = .halfBitError) :
      Detects St.preamble kind
  | packetEnd {kind : ErrorKind} (hk : kind = .unexpectedZero ∨ kind = .halfBitError) :
      Detects St.packetEnd kind
  | startBit {st : BitVec 4} {kind : ErrorKind}
      (hst : st = St.packetStart ∨ st = St.dataStart ∨ st = St.checksumStart)
      (hk : kind = .unexpectedOne ∨ kind = .bitError ∨ kind = .framingError) : Detects st kind
  | byteBit {st : BitVec 4} {kind : ErrorKind} (hst : isByteState st = true)
      (hk : kind = .bitError ∨ kind = .framingError) : Detects st kind

theorem isByteState_iff (st : BitVec 4) :
    isByteState st = true ↔ st = St.commandByte ∨ st = St.dataByte ∨ st = St.checksumByte := by
  revert st; decide

/-- An ERROR frame is a row of the error table (60_exceptions.md R241). -/
theorem errorFrame_wf {st : BitVec 4} {kind : ErrorKind} (h : Detects st kind) (a b : Pos) :
    (errorFrame st kind a b).wf = true := by
  cases h with
  | preamble hk | packetEnd hk => rcases hk with rfl | rfl <;> rfl
  | startBit hst hk => rcases hst with rfl | rfl | rfl <;> rcases hk with rfl | rfl | rfl <;> rfl
  | byteBit hst hk =>
    rcases (isByteState_iff st).1 hst with rfl | rfl | rfl <;> rcases hk with rfl | rfl <;> rfl

/-! ## The frames of a step -/

/-- The frames of `s` are kept and at most a well-formed one is added. -/
inductive EmitsWf (s u : State) : Prop where
  | none (ho : u.out.frames = s.out.frames)
  | one (f : Frame) (ho : u.out.frames = s.out.frames ++ [f]) (hf : f.wf = true)

theorem EmitsWf.framesWellFormed {s u : State} (h : EmitsWf s u) (hs : FramesWellFormed s) :
    FramesWellFormed u := by
  cases h with
  | none ho => rwa [FramesWellFormed, ho]
  | one f ho hf =>
    rw [FramesWellFormed, ho]
    exact List.forall_mem_append.2 ⟨hs, List.forall_mem_singleton.2 hf⟩

/-- A frame of a byte state goes after the frames of the state its byte ended in. -/
theorem emitsWf_of_byteFrame {s u : State} (e f : Pos) {fr : Frame}
    (ho : u.out.frames = (afterByteBit e f s).out.frames ++ [fr]) (hf : fr.wf = true) :
    EmitsWf s u :=
  .one fr (by rw [ho, afterByteBit_out]) hf

/-- Every shape in which an instruction runs emits nothing or a frame that its type allows. -/
theorem Runs.emitsWf {s u : State} (h : Runs s u) : EmitsWf s u := by
  cases h with
  | huntOne | huntMiss | preambleOne | skipGap | skipEnd => exact .none rfl
  | byteMid e f => exact .none (congrArg Output.frames (afterByteBit_out e f s))
  | preambleZero => exact .one _ rfl (preambleFrame_wf s)
  | packetStart => exact .one _ rfl (bareFrame_wf (.inl rfl) _ _)
  | dataStart | checksumStart => exact .one _ rfl (bareFrame_wf (.inr (.inl rfl)) _ _)
  | endGap | endOne => exact .one _ rfl (bareFrame_wf (.inr (.inr rfl)) _ _)
  | preambleFail e kind hst he hk =>
    exact .one _ rfl (errorFrame_wf (hst ▸ .preamble hk) _ _)
  | endFail e kind hst he hk => exact .one _ rfl (errorFrame_wf (hst ▸ .packetEnd hk) _ _)
  | startFail e f kind hst he hk => exact .one _ rfl (errorFrame_wf (.startBit hst hk) _ _)
  | byteFail e f kind hst he hk =>
    have hst' : isByteState (afterByteBit e f s).st = true := by rwa [afterByteBit_st]
    exact emitsWf_of_byteFrame e f rfl (errorFrame_wf (.byteBit hst' hk) _ _)
  | commandDone e f b hst he hb u hu =>
    obtain rfl := completeCommand_next hu
    exact emitsWf_of_byteFrame e f rfl (commandFrame_wf _ _)
  | dataDone e f b hst he hb u hu =>
    obtain ⟨hcar, x, rfl, -⟩ := completeData_next hu
    exact emitsWf_of_byteFrame e f rfl (carDataFrame_wf _ hcar)
  | checksumDone e f b hst he hb u hu =>
    obtain rfl := completeChecksum_next hu
    exact emitsWf_of_byteFrame e f rfl (checksumFrame_wf _ _)

/-- Settles O51: a step that stays or halts emits nothing, and an instruction emits at most a well-formed
frame. -/
theorem stepKeepsFramesWellFormed : Obligations.StepKeepsFramesWellFormed := by
  intro s t hs h
  exact step_keeps h hs hs (fun _ _ => hs) fun _ _ hu => hu.emitsWf.framesWellFormed hs

/-! ## Decoding -/

/-- Every instruction's key is its row of the table (30_encoding.md R92). -/
@[simp] theorem decodeKey_encodeKey (i : Instr) : decodeKey (encodeKey i) = .ok i := by
  cases i <;> rfl

/-- The low bits of a widened value are the value. -/
theorem extractLsb'_setWidth_self {w n : Nat} (x : BitVec w) (h : w ≤ n) :
    (x.setWidth n).extractLsb' 0 w = x := by
  rw [BitVec.extractLsb'_setWidth_of_le (by omega), BitVec.extractLsb'_eq_self]

/-- A byte with bits 7 and 6 zero is decoded as the key in its other bits (log entry 9). -/
theorem decode_keyByte (key : BitVec 6) (rest : List Byte) :
    decode (key.setWidth 8 :: rest) = (decodeKey key).map fun i => (i, rest) := by
  have hspare : (key.setWidth 8).extractLsb' 6 2 = 0 := by ext i hi; simp
  rw [decode, if_pos hspare, extractLsb'_setWidth_self key (by decide)]
  cases decodeKey key <;> rfl

/-- Settles O1: the encoding is the instruction's key in one byte with the spare bits zero. -/
theorem decodeOfEncode : Obligations.DecodeOfEncode := by
  intro i
  refine ⟨?_, decodeKey_encodeKey i⟩
  rw [encode, decode_keyByte, decodeKey_encodeKey]
  rfl

/-- HALTED is decoded from its state code alone (30_encoding.md R92). -/
theorem decodeKey_halted_iff (key : BitVec 6) :
    decodeKey key = .ok .halted ↔ key &&& 0x3C = encodeKey .halted := by
  revert key; decide

/-- Every other instruction is decoded from its one key. -/
theorem decodeKey_eq_ok_iff {key : BitVec 6} {i : Instr} (hi : i ≠ .halted) :
    decodeKey key = .ok i ↔ key = encodeKey i :=
  ⟨fun h => (key_of_decodeKey h).resolve_left hi, fun h => h ▸ decodeKey_encodeKey i⟩

/-- The keys of the reserved state codes (30_encoding.md R91). -/
theorem decodeKey_reservedState_iff (key : BitVec 6) :
    decodeKey key = .error .reservedState ↔
      0xA ≤ (key.extractLsb' 2 4).toNat ∧ (key.extractLsb' 2 4).toNat ≤ 0xE := by
  revert key; decide

/-- The one key of a state that no input of it makes, HUNT with a GAP (30_encoding.md R95). -/
theorem decodeKey_unreachableKey_iff (key : BitVec 6) :
    decodeKey key = .error .unreachableKey ↔ key = 0b000010 := by
  revert key; decide

/-- Settles O2: HALTED's row leaves the two input bits out of the comparison, every other row compares the
whole key. -/
theorem decodeIsTheTable : Obligations.DecodeIsTheTable := by
  refine ⟨fun key i => ?_, decodeKey_reservedState_iff, decodeKey_unreachableKey_iff⟩
  split
  · rename_i hi
    rw [hi]
    exact decodeKey_halted_iff key
  · rename_i hi
    rw [show key &&& 0x3F = key from BitVec.and_allOnes]
    exact decodeKey_eq_ok_iff hi

/-- Settles O3: each key but HALTED's is the key of its instruction, and HALTED's has any input. -/
theorem knownKeysDecode : Obligations.KnownKeysDecode :=
  ⟨decodeKey_encodeKey .huntOne, decodeKey_encodeKey .preambleGap,
    decodeKey_encodeKey .packetStartZero, decodeKey_encodeKey .commandByteBitError,
    decodeKey_encodeKey .dataStartFramingError, decodeKey_encodeKey .dataByteOne,
    decodeKey_encodeKey .checksumStartZero, decodeKey_encodeKey .checksumByteOne,
    decodeKey_encodeKey .packetEndGap, decodeKey_encodeKey .gapSkipError,
    (decodeKey_halted_iff 0b111101).2 rfl⟩

/-! ## The key a running state fetches -/

/-- A one-edge state with its edge fetches its code and its symbol (30_encoding.md R92). -/
theorem fetchKey_of_nextEdge {s : State} {e : Pos} (hn : needsTwoEdges s.st = false)
    (he : NextEdge s e) : fetchKey s = .ready (s.st ++ (symbolInput e s).code) := by
  rw [fetchKey, hn, (supplyOne_ready s e).2 he]; rfl

/-- A two-edge state with its edges fetches its code and its bit (30_encoding.md R92). -/
theorem fetchKey_of_nextEdges {s : State} {e f : Pos} (hn : needsTwoEdges s.st = true)
    (he : NextEdges s e f) : fetchKey s = .ready (s.st ++ (assembleBit e f s).1.code) := by
  rw [fetchKey, hn, (supplyTwo_ready s e f).2 he]; rfl

theorem symbolInput_of_hunt {s : State} (h : s.st = St.hunt) (e : Pos) :
    symbolInput e s = classify s.cfg (samples s.cur e) false := by
  rw [symbolInput, if_pos h]; rfl

theorem symbolInput_of_ne_hunt {s : State} (h : s.st ≠ St.hunt) (e : Pos) :
    symbolInput e s = classify s.cfg (samples s.cur e) true := by
  rw [symbolInput, if_neg h]; rfl

/-- Settles O39: HUNT alone reads Consume's symbol, and the six bit states are the two-edge states. -/
theorem keyIsStateThenInput : Obligations.KeyIsStateThenInput := by
  intro s e f
  refine ⟨fun hst he => ?_, fun hst he => ?_, fun hst he => ?_⟩
  · rw [← symbolInput_of_hunt hst]
    exact fetchKey_of_nextEdge (by rw [hst]; rfl) he
  · obtain ⟨hne, hone⟩ : s.st ≠ St.hunt ∧ needsTwoEdges s.st = false := by
      rcases hst with hst | hst | hst <;> rw [hst] <;> decide
    rw [← symbolInput_of_ne_hunt hne]
    exact fetchKey_of_nextEdge hone he
  · refine fetchKey_of_nextEdges ((mem_bitStates_iff s.st).1 ?_) he
    simpa only [List.mem_cons, List.not_mem_nil, or_false] using hst

/-! ## Packed records -/

/-- The last word of a packed frame (30_encoding.md R102). -/
def typeFlagsWord (t flags : BitVec 4) : Word64 := t.setWidth 64 ||| (flags.setWidth 64 <<< 8)

/-- W4[3:0] is the frame type: the flags lie above it. -/
theorem typeFlagsWord_type (t flags : BitVec 4) :
    (typeFlagsWord t flags).extractLsb' 0 4 = t := by
  ext i hi
  simp [typeFlagsWord, hi, show i < 64 by omega, show i < 8 by omega]

/-- W4[11:8] is the flags: the frame type has no bit there. -/
theorem typeFlagsWord_flags (t flags : BitVec 4) :
    (typeFlagsWord t flags).extractLsb' 8 4 = flags := by
  ext i hi
  simp [typeFlagsWord, hi, show 8 + i < 64 by omega,
    BitVec.getLsbD_of_ge t (8 + i) (by omega)]

/-- The other bits of W4 are zero: each of the two fields lies within the mask. -/
theorem typeFlagsWord_spare (t flags : BitVec 4) :
    typeFlagsWord t flags &&& 0xF0F = typeFlagsWord t flags := by
  have htype : t.setWidth 64 &&& (0xF0F : Word64) = t.setWidth 64 := by revert t; decide
  have hflags : (flags.setWidth 64 <<< 8) &&& (0xF0F : Word64) = flags.setWidth 64 <<< 8 := by
    revert flags; decide
  rw [typeFlagsWord, BitVec.and_or_distrib_right, htype, hflags]

@[simp] theorem FrameType.ofCode_code (t : FrameType) : FrameType.ofCode t.code = some t := by
  cases t <;> rfl

@[simp] theorem MarkerKind.ofCode_code (k : MarkerKind) : MarkerKind.ofCode k.code = k := by
  cases k <;> rfl

theorem Frame.pack_eq (f : Frame) :
    f.pack = [f.startSample, f.endSample, f.data1, f.data2,
      typeFlagsWord f.frameType.code f.flags] := rfl

theorem Frame.unpack_pack (f : Frame) : Frame.unpack f.pack = some f := by
  rw [Frame.pack_eq, Frame.unpack, if_pos (typeFlagsWord_spare _ _), typeFlagsWord_type,
    typeFlagsWord_flags, FrameType.ofCode_code]
  rfl

/-- The other bits of W1 are zero (30_encoding.md R103). -/
theorem kindWord_spare (c : BitVec 2) : c.setWidth 64 &&& (0x3 : Word64) = c.setWidth 64 := by
  revert c; decide

theorem Marker.unpack_pack (m : Marker) : Marker.unpack m.pack = some m := by
  rw [Marker.pack, Marker.unpack, if_pos (kindWord_spare _), extractLsb'_setWidth_self _ (by decide),
    MarkerKind.ofCode_code]

/-- Settles O4: the fields of a packed word do not overlap, and every code is read as what it stands
for. -/
theorem packedRecordsReadBack : Obligations.PackedRecordsReadBack :=
  ⟨fun f => ⟨_, Frame.pack_eq f, typeFlagsWord_type _ _, typeFlagsWord_flags _ _,
      typeFlagsWord_spare _ _, Frame.unpack_pack f⟩,
    fun m => ⟨_, rfl, extractLsb'_setWidth_self _ (by decide), kindWord_spare _,
      Marker.unpack_pack m⟩⟩

/-! ## Configuration registers by number -/

/-- A value cut to a register's width and read back is its low bits (30_encoding.md R104). -/
theorem setWidth_setWidth_eq_and (v : Word64) {w : Nat} (hw : w ≤ 64) :
    (v.setWidth w).setWidth 64 = v &&& BitVec.ofNat 64 (2 ^ w - 1) := by
  have hmask : 2 ^ w - 1 < 2 ^ 64 := by
    have := Nat.pow_le_pow_right (show 0 < 2 by decide) hw
    omega
  apply BitVec.eq_of_toNat_eq
  rw [BitVec.toNat_setWidth_of_le hw, BitVec.toNat_setWidth, BitVec.toNat_and, BitVec.toNat_ofNat,
    Nat.mod_eq_of_lt hmask, Nat.and_two_pow_sub_one_eq_mod]

@[simp] theorem formulaOfBit_code (b : BitVec 1) : (formulaOfBit b).code = b := by
  revert b; decide

theorem cksumFormula_code_eq (x : CksumFormula) :
    (x.code.setWidth 64 : Word64) = if x = .ffCmdData then 1 else 0 := by
  cases x <;> rfl

/-- A write changes what its own number reads and no other: for each number written, the reads of the
others do not look at its register. -/
theorem read_write_of_ne (c : CfgRegs) (v : Word64) {n m : Nat} (h : m ≠ n) :
    (c.write n v).read m = c.read m := by
  unfold CfgRegs.write
  split
  all_goals
    unfold CfgRegs.read
    split <;> simp at h ⊢

/-- A register of 64 bits reads back the value written. -/
theorem read_write_full (c : CfgRegs) (v : Word64) {n : Nat} (h : n ≤ 6 ∨ n = 11) :
    (c.write n v).read n = v := by
  rcases h with h | rfl
  · interval_cases n <;> rfl
  · rfl

/-- Numbers 12 and above are reserved (30_encoding.md R104). -/
theorem write_reserved (c : CfgRegs) (v : Word64) {n : Nat} (h : 12 ≤ n) : c.write n v = c := by
  obtain ⟨k, rfl⟩ := Nat.exists_eq_add_of_le' h
  rfl

/-- Numbers 12 and above read 0 (30_encoding.md R104). -/
theorem read_reserved (c : CfgRegs) {n : Nat} (h : 12 ≤ n) : c.read n = 0 := by
  obtain ⟨k, rfl⟩ := Nat.exists_eq_add_of_le' h
  rfl

/-- Settles O7: a narrow register keeps the low bits of what is written, the formula as its one bit. -/
theorem configurationRegistersByNumber : Obligations.ConfigurationRegistersByNumber := by
  intro c v
  refine ⟨⟨rfl, rfl, rfl, rfl, rfl, rfl, rfl, rfl, cksumFormula_code_eq _, rfl, rfl, rfl⟩,
    fun n m h => read_write_of_ne c v h, fun n h => read_write_full c v h,
    setWidth_setWidth_eq_and v (by decide), ?_, setWidth_setWidth_eq_and v (by decide),
    setWidth_setWidth_eq_and v (by decide), fun n h => ⟨write_reserved c v h, read_reserved c h⟩⟩
  change (formulaOfBit (v.setWidth 1)).code.setWidth 64 = v &&& 0x1
  rw [formulaOfBit_code]
  exact setWidth_setWidth_eq_and v (by decide)

/-! ## The codes -/

theorem mode_code_ne_reserved (m : Mode) : m.code ≠ 3 := by cases m <;> decide

theorem frameType_code_lt (t : FrameType) : t.code.toNat < 8 := by cases t <;> decide

/-- A ZERO bit leaves the vacated bit 0 (41_bit_assembler.md R142). -/
theorem shiftIn_zero_shreg (s : State) : (shiftIn 0 s).ctx.shreg = s.ctx.shreg <<< 1 :=
  BitVec.or_zero

/-- Settles O59, table by table. -/
theorem codeTables : Obligations.CodeTables :=
  ⟨⟨rfl, rfl, rfl, rfl⟩,
    ⟨rfl, rfl, rfl, rfl, fun s => ⟨shiftIn_zero_shreg s, rfl⟩⟩,
    ⟨rfl, rfl, rfl, mode_code_ne_reserved, modeOf_code⟩,
    ⟨rfl, rfl, rfl, rfl, rfl, rfl, rfl, rfl, frameType_code_lt⟩,
    ⟨rfl, rfl, rfl, rfl⟩, ⟨rfl, rfl, rfl, rfl⟩⟩

end Sys2Proof.Machine
end

-- Proofs of the family 40_linecode.md
section

/-! PROOFS. The statement of 40_linecode.md. All that Classify can answer is said once; what each answer
says of the interval follows by cases on it, and the answers at the windows' ends from the order that the
validity rule of 10_state.md gives the windows. -/

namespace Sys2Proof.Machine

/-- A window with both its bounds in it (40_linecode.md R120). -/
def InWindow (lo hi : Word64) (len : Nat) : Prop := lo.toNat ≤ len ∧ len ≤ hi.toNat

/-- All that Classify can answer: the first of the ONE, ZERO and, under Peek, gap windows that holds the
interval, and ERROR where none does. -/
theorem classify_cases (c : CfgRegs) (len : Nat) (peek : Bool) :
    (InWindow c.min1 c.max1 len ∧ classify c len peek = .one) ∨
    (¬ InWindow c.min1 c.max1 len ∧ InWindow c.min0 c.max0 len ∧ classify c len peek = .zero) ∨
    (¬ InWindow c.min1 c.max1 len ∧ ¬ InWindow c.min0 c.max0 len ∧
      (peek = true ∧ InWindow c.minGap c.maxGap len) ∧ classify c len peek = .gap) ∨
    (¬ InWindow c.min1 c.max1 len ∧ ¬ InWindow c.min0 c.max0 len ∧
      ¬ (peek = true ∧ InWindow c.minGap c.maxGap len) ∧ classify c len peek = .error) := by
  unfold classify
  split
  next h1 => exact .inl ⟨h1, rfl⟩
  next h1 =>
    split
    next h0 => exact .inr (.inl ⟨h1, h0, rfl⟩)
    next h0 =>
      split
      next hg => exact .inr (.inr (.inl ⟨h1, h0, hg, rfl⟩))
      next hg => exact .inr (.inr (.inr ⟨h1, h0, hg, rfl⟩))

theorem classify_eq_one_iff (c : CfgRegs) (len : Nat) (peek : Bool) :
    classify c len peek = .one ↔ InWindow c.min1 c.max1 len := by
  rcases classify_cases c len peek with ⟨h1, h⟩ | ⟨h1, -, h⟩ | ⟨h1, -, -, h⟩ | ⟨h1, -, -, h⟩ <;>
    simp [h, h1]

theorem classify_eq_zero_iff (c : CfgRegs) (len : Nat) (peek : Bool) :
    classify c len peek = .zero ↔ ¬ InWindow c.min1 c.max1 len ∧ InWindow c.min0 c.max0 len := by
  rcases classify_cases c len peek with ⟨h1, h⟩ | ⟨h1, h0, h⟩ | ⟨h1, h0, -, h⟩ | ⟨h1, h0, -, h⟩ <;>
    simp [*]

theorem classify_eq_gap_iff (c : CfgRegs) (len : Nat) (peek : Bool) :
    classify c len peek = .gap ↔
      peek = true ∧ ¬ InWindow c.min1 c.max1 len ∧ ¬ InWindow c.min0 c.max0 len ∧
        InWindow c.minGap c.maxGap len := by
  rcases classify_cases c len peek with
    ⟨h1, h⟩ | ⟨h1, h0, h⟩ | ⟨h1, h0, ⟨hp, hg⟩, h⟩ | ⟨h1, h0, hg, h⟩
  · simp [h, h1]
  · simp [h, h0]
  · exact ⟨fun _ => ⟨hp, h1, h0, hg⟩, fun _ => h⟩
  · simpa [h, h1, h0] using hg

/-- Under Consume an interval outside the ONE and the ZERO window is an ERROR, in the gap window or not. -/
theorem classify_consume_eq_error {c : CfgRegs} {len : Nat} (h1 : ¬ InWindow c.min1 c.max1 len)
    (h0 : ¬ InWindow c.min0 c.max0 len) : classify c len false = .error := by
  rcases classify_cases c len false with ⟨h, -⟩ | ⟨-, h, -⟩ | ⟨-, -, ⟨h, -⟩, -⟩ | ⟨-, -, -, h⟩
  · exact absurd h h1
  · exact absurd h h0
  · exact absurd h Bool.false_ne_true
  · exact h

/-- A valid configuration has a ONE window of positive lengths and a ZERO window above it, neither of
them empty (10_state.md R50). -/
theorem CfgRegs.windows_of_valid {c : CfgRegs} (h : c.valid = true) :
    1 ≤ c.min1.toNat ∧ c.min1.toNat ≤ c.max1.toNat ∧ c.max1.toNat < c.min0.toNat ∧
      c.min0.toNat ≤ c.max0.toNat := by
  simp only [CfgRegs.valid, Bool.and_eq_true, decide_eq_true_eq, and_assoc] at h
  obtain ⟨hpos, hone, hsep, hzero, -⟩ := h
  exact ⟨hpos, hone, hsep, hzero⟩

/-- Settles O9: each answer from the one list of what Classify can do, and the ends of the windows from
the order that validity gives them. -/
theorem classifyByWindows : Obligations.ClassifyByWindows := by
  intro c len peek
  refine ⟨classify_eq_one_iff c len peek, classify_eq_zero_iff c len peek,
    classify_eq_gap_iff c len peek, fun hv => ?_⟩
  obtain ⟨hpos, hone, hsep, hzero⟩ := CfgRegs.windows_of_valid hv
  have not_inOne_min0 : ¬ InWindow c.min1 c.max1 c.min0.toNat := fun h => Nat.not_le.2 hsep h.2
  have not_inOne_0 : ¬ InWindow c.min1 c.max1 0 := fun h => Nat.not_le.2 hpos h.1
  have not_inZero_0 : ¬ InWindow c.min0 c.max0 0 := fun h =>
    Nat.not_le.2 (Nat.zero_lt_of_lt hsep) h.1
  exact ⟨(classify_eq_one_iff ..).2 ⟨hone, le_rfl⟩,
    (classify_eq_zero_iff ..).2 ⟨not_inOne_min0, le_rfl, hzero⟩,
    classify_consume_eq_error not_inOne_0 not_inZero_0⟩

end Sys2Proof.Machine
end

-- Proofs of the family 41_bit_assembler.md
section

/-! PROOFS. The statements of 41_bit_assembler.md. All that the bit assembler can answer is said once, and
each of its four results follows by cases on it. A byte is assembled by an induction on the bits still to
come, from the value that one ShiftIn makes. -/

namespace Sys2Proof.Machine

/-! ## The bit assembler -/

/-- Consume never answers GAP (90_conflicts.md C6). -/
theorem classify_consume_ne_gap (c : CfgRegs) (len : Nat) : classify c len false ≠ .gap :=
  fun h => Bool.false_ne_true ((classify_eq_gap_iff c len false).1 h).1

/-- The BIT_ERROR test of AssembleBit (41_bit_assembler.md R140). -/
def BadBit (h1 h2 : HalfBitSymbol) (span maxBit : Nat) : Prop :=
  h1 = .error ∨ h2 = .error ∨ maxBit < span

/-- The one symbol left where the bit is neither bad nor a ONE is ZERO, because a half-bit of a bit is
never a GAP. -/
theorem eq_zero_of_not_badBit {h1 h2 : HalfBitSymbol} {span maxBit : Nat} (hgap : h1 ≠ .gap)
    (hbad : ¬ BadBit h1 h2 span maxBit) (hone : h1 ≠ .one) : h1 = .zero := by
  cases h1 with
  | zero => rfl
  | one => exact absurd rfl hone
  | gap => exact absurd rfl hgap
  | error => exact absurd (.inl rfl) hbad

/-- All that the bit assembler can answer, in the order of its tests (41_bit_assembler.md R140, R141). -/
theorem judgeBit_cases {h1 : HalfBitSymbol} (h2 : HalfBitSymbol) (span maxBit : Nat)
    (hgap : h1 ≠ .gap) :
    (BadBit h1 h2 span maxBit ∧ judgeBit h1 h2 span maxBit = .bitError) ∨
    (¬ BadBit h1 h2 span maxBit ∧ h1 ≠ h2 ∧ judgeBit h1 h2 span maxBit = .framingError) ∨
    (¬ BadBit h1 h2 span maxBit ∧ h1 = .one ∧ h2 = .one ∧ judgeBit h1 h2 span maxBit = .one) ∨
    (¬ BadBit h1 h2 span maxBit ∧ h1 = .zero ∧ h2 = .zero ∧
      judgeBit h1 h2 span maxBit = .zero) := by
  unfold judgeBit
  split
  next hbad => exact .inl ⟨hbad, rfl⟩
  next hbad =>
    split
    next hne => exact .inr (.inl ⟨hbad, hne, rfl⟩)
    next heq =>
      obtain rfl := not_not.1 heq
      split
      next hone => exact .inr (.inr (.inl ⟨hbad, hone, hone, rfl⟩))
      next hone =>
        have hzero := eq_zero_of_not_badBit hgap hbad hone
        exact .inr (.inr (.inr ⟨hbad, hzero, hzero, rfl⟩))

/-- When the bit assembler gives each of its four results. -/
theorem judgeBit_iffs {h1 : HalfBitSymbol} (h2 : HalfBitSymbol) (span maxBit : Nat)
    (hgap : h1 ≠ .gap) :
    (judgeBit h1 h2 span maxBit = .bitError ↔ BadBit h1 h2 span maxBit) ∧
    (judgeBit h1 h2 span maxBit = .framingError ↔ ¬ BadBit h1 h2 span maxBit ∧ h1 ≠ h2) ∧
    (judgeBit h1 h2 span maxBit = .one ↔ ¬ BadBit h1 h2 span maxBit ∧ h1 = .one ∧ h2 = .one) ∧
    (judgeBit h1 h2 span maxBit = .zero ↔
      ¬ BadBit h1 h2 span maxBit ∧ h1 = .zero ∧ h2 = .zero) := by
  rcases judgeBit_cases h2 span maxBit hgap with
    ⟨hbad, h⟩ | ⟨hbad, hne, h⟩ | ⟨hbad, rfl, rfl, h⟩ | ⟨hbad, rfl, rfl, h⟩
  · simp [h, hbad]
  · have hsame (b : HalfBitSymbol) : ¬ (h1 = b ∧ h2 = b) := fun ⟨p, q⟩ => hne (p.trans q.symm)
    simp [h, hbad, hne, hsame]
  · simp [h, hbad]
  · simp [h, hbad]

/-- Settles O10: both Consumes happen before the result is judged, and the first symbol judged is
Consume's, so not a GAP. -/
theorem assembleBitConsumesTwo : Obligations.AssembleBitConsumesTwo := fun e f s =>
  ⟨rfl, judgeBit_iffs (classify s.cfg (samples e f) false) (samples s.cur f) s.cfg.maxBit.toNat
    (classify_consume_ne_gap s.cfg (samples s.cur e))⟩

/-! ## Byte assembly -/

/-- Shifting bit `i` of a value in below its higher bits gives its bits from `i` up
(41_bit_assembler.md R142). -/
theorem shiftLeft_or_extractLsb' (v : BitVec 8) (i : Nat) :
    ((v >>> (i + 1)) <<< 1) ||| (v.extractLsb' i 1).setWidth 8 = v >>> i := by
  ext j hj
  cases j with
  | zero => simp
  | succ j => simp [show i + 1 + j = i + (j + 1) by omega]

/-- ShiftIn of bit `i` of a value whose higher bits stand in the shift register. -/
theorem shiftIn_bit_of_value {s : State} {v : BitVec 8} {i : Nat}
    (h : s.ctx.shreg = v >>> (i + 1)) :
    shiftIn (v.extractLsb' i 1) s =
      { s with ctx.shreg := v >>> i, ctx.bidx := s.ctx.bidx + 1 } := by
  rw [shiftIn, h, shiftLeft_or_extractLsb']

/-- ShiftIns of the low `n` bits of a value, the highest of them first, complete the value whose other bits
stand in the shift register. -/
theorem foldl_shiftIn_low_bits (v : BitVec 8) (n : Nat) (s : State) (h : s.ctx.shreg = v >>> n) :
    (List.range n).reverse.foldl (fun t i => shiftIn (v.extractLsb' i 1) t) s =
      { s with ctx.shreg := v, ctx.bidx := s.ctx.bidx + BitVec.ofNat 4 n } := by
  induction n generalizing s with
  | zero =>
    obtain rfl : s.ctx.shreg = v := h.trans (BitVec.ushiftRight_zero v)
    simp
  | succ n ih =>
    have hcount : s.ctx.bidx + 1 + BitVec.ofNat 4 n = s.ctx.bidx + BitVec.ofNat 4 (n + 1) := by
      rw [BitVec.add_assoc, BitVec.ofNat_add, BitVec.add_comm 1]
      rfl
    rw [List.range_succ, List.reverse_concat, List.foldl_cons, shiftIn_bit_of_value h, ih _ rfl,
      hcount]

/-- Settles O11: a cleared shift register holds the bits of any byte from bit 8 up, that is none. -/
theorem eightShiftsMsbFirst : Obligations.EightShiftsMsbFirst := by
  intro s v hshreg hbidx
  have hnone : s.ctx.shreg = v >>> 8 := hshreg.trans (BitVec.ushiftRight_eq_zero le_rfl).symm
  have hall := foldl_shiftIn_low_bits v 8 s hnone
  rwa [hbidx] at hall

end Sys2Proof.Machine
end

-- Proofs of the family 42_framer.md
section

/-! PROOFS. The statements of 42_framer.md. What each instruction answers on its edges is said first; the
step of each state runs the instruction its input decodes to. The whole-machine rules follow by cases on
`Runs`: the next-state graph, the ZERO ahead of PACKET_START, the bound on a finite capture and the
indifference to the past. -/

namespace Sys2Proof.Machine

/-! ## Counters as numbers -/

/-- The saturating count in numbers (10_state.md R23). -/
theorem countOne_eq_countedUp (n : BitVec 32) : countOne n = BitVec.ofNat 32 (countedUp n) := by
  apply BitVec.eq_of_toNat_eq
  rw [countOne_toNat, BitVec.toNat_ofNat, countedUp]
  exact (Nat.mod_eq_of_lt (by omega)).symm

/-- Whole bits are half the half-bits counted, as record words (30_encoding.md R99). -/
theorem setWidth_half_eq_ofNat (n : BitVec 32) :
    (n >>> 1).setWidth 64 = BitVec.ofNat 64 (n.toNat / 2) := by
  rw [← BitVec.ofNat_toNat, BitVec.toNat_ushiftRight, Nat.shiftRight_one]

/-- The 1-based index of a stored data byte as a record word (30_encoding.md R107). -/
theorem setWidth_succ_eq_ofNat (n : BitVec 3) :
    n.setWidth 64 + 1 = BitVec.ofNat 64 (n.toNat + 1) := by
  rw [← BitVec.ofNat_toNat, BitVec.ofNat_add]
  rfl

/-! ## What the one-edge instructions answer -/

/-- Settles O15: the counter is the saturating count, and the state stays HUNT below the threshold. -/
theorem huntInstructions : Obligations.HuntInstructions := by
  intro s e hst he
  refine ⟨(whenReady_one he _).trans ?_, whenReady_one he _, whenReady_one he _⟩
  have hcount : (BitVec.ofNat 32 (countedUp s.pcnt)).toNat = countedUp s.pcnt := by
    rw [← countOne_eq_countedUp, countOne_toNat, countedUp]
  simp only [consume_snd, countPreamble, edgePop, countOne_eq_countedUp, hcount, hst]

/-- Settles O16: the ready edge is consumed and counted. -/
theorem preambleOneCounts : Obligations.PreambleOneCounts := by
  intro s e _ he
  rw [← countOne_eq_countedUp]
  exact whenReady_one he _

/-- Settles O17: the frame's two counts are the counter and its half as record words. -/
theorem preambleZeroEmits : Obligations.PreambleZeroEmits := by
  intro s e _ he
  rw [← setWidth_half_eq_ofNat, BitVec.ofNat_toNat]
  exact whenReady_one he _

/-- Settles O18: the error entry emits the frame of its kind and clears what HUNT clears. -/
theorem peekErrorsReturnToHunt : Obligations.PeekErrorsReturnToHunt := fun _ _ he =>
  ⟨fun _ => ⟨whenReady_one he _, whenReady_one he _⟩,
    fun _ => ⟨whenReady_one he _, whenReady_one he _⟩⟩

/-- Settles O27: the peeked edge is ready and is read as the frame's end only. -/
theorem packetEndGapEmits : Obligations.PacketEndGapEmits := fun _ _ _ he => whenReady_one he _

/-- Settles O28: the ready edge ends the frame and is consumed as the first counted half-bit. -/
theorem packetEndOneCountsOnce : Obligations.PacketEndOneCountsOnce :=
  fun _ _ _ he => whenReady_one he _

/-- Settles O29: the three lookaheads other than GAP have the same answer. -/
theorem gapSkipInstructions : Obligations.GapSkipInstructions := by
  intro s e _ he
  refine ⟨whenReady_one he _, fun i hi => ?_⟩
  simp only [List.mem_cons, List.not_mem_nil, or_false] at hi
  rcases hi with rfl | rfl | rfl <;> exact whenReady_one he _

/-- Settles O30: the meaning of HALTED is the state itself. -/
theorem haltedChangesNothing : Obligations.HaltedChangesNothing := fun _ _ => rfl

/-! ## What the start-bit instructions answer -/

/-- Settles O19: the initial accumulator is the one of the configured formula (43_checksum.md R221). -/
theorem packetStartZeroEmits : Obligations.PacketStartZeroEmits := by
  intro s e f _ he
  exact startBitStep_ready he confirmPacketStart

/-- Settles O20: the two instructions differ in the byte state that follows. -/
theorem dataStartZeroEmits : Obligations.DataStartZeroEmits := by
  rintro s e f i target (⟨rfl, -, rfl⟩ | ⟨rfl, -, rfl⟩) he
  · exact startBitStep_ready he (confirmDataStart St.dataByte)
  · exact startBitStep_ready he (confirmDataStart St.checksumByte)

/-- A failed start bit raises the error that spans it (42_framer.md R175). -/
theorem startBitStep_bitFail {s : State} {e f : Pos} (he : NextEdges s e f) (kind : ErrorKind) :
    startBitStep (bitFail kind) s =
      .next (afterError { s with cur := f, k := s.k + 2, ustart := s.cur } kind.code kind.flag
        s.cur f) :=
  startBitStep_ready he (bitFail kind)

/-- Settles O21: every instruction of the three lists is a failed start bit of the kind that its code and
flag name. -/
theorem startBitErrorsReturnToHunt : Obligations.StartBitErrorsReturnToHunt := by
  intro s e f i kind flags h he
  simp only [List.mem_cons, List.not_mem_nil, or_false, Prod.mk.injEq] at h
  have hfail := startBitStep_bitFail he
  rcases h with ⟨-, h⟩ | ⟨-, h⟩ | ⟨-, h⟩
  all_goals
    rcases h with ⟨rfl, rfl, rfl⟩ | ⟨rfl, rfl, rfl⟩ | ⟨rfl, rfl, rfl⟩
    exacts [hfail .unexpectedOne, hfail .bitError, hfail .framingError]

/-! ## What the byte instructions answer -/

/-- The four instructions of a byte state and what it does with a complete byte
(42_framer.md R165, R168, R171). -/
structure ByteInstrs (st : BitVec 4) (zero one bitError framingError : Instr)
    (complete : BitVec 8 → State → StepResult) : Prop where
  byteState : isByteState st = true
  key_zero : decodeKey (st ++ LogicalBit.zero.code) = .ok zero
  key_one : decodeKey (st ++ LogicalBit.one.code) = .ok one
  key_bitError : decodeKey (st ++ LogicalBit.bitError.code) = .ok bitError
  key_framingError : decodeKey (st ++ LogicalBit.framingError.code) = .ok framingError
  exec_zero : exec zero = byteBitStep (takeBit 0 complete)
  exec_one : exec one = byteBitStep (takeBit 1 complete)
  exec_bitError : exec bitError = byteBitStep fun t => .next (bitFail .bitError t)
  exec_framingError : exec framingError = byteBitStep fun t => .next (bitFail .framingError t)

theorem commandInstrs : ByteInstrs St.commandByte .commandByteZero .commandByteOne
    .commandByteBitError .commandByteFramingError completeCommand := by
  constructor <;> rfl

theorem dataInstrs : ByteInstrs St.dataByte .dataByteZero .dataByteOne .dataByteBitError
    .dataByteFramingError completeData := by
  constructor <;> rfl

theorem checksumInstrs : ByteInstrs St.checksumByte .checksumByteZero .checksumByteOne
    .checksumByteBitError .checksumByteFramingError completeChecksum := by
  constructor <;> rfl

namespace ByteInstrs

variable {st : BitVec 4} {iz io ie ifr i : Instr} {complete : BitVec 8 → State → StepResult}
  {b : BitVec 8} {s : State} {e f : Pos}

/-- The two instructions that take a bit shift in its value (41_bit_assembler.md R142). -/
theorem exec_bit (h : ByteInstrs st iz io ie ifr complete) (hi : (i, b) ∈ [(iz, 0), (io, 1)]) :
    ∃ x : BitVec 1, b = x.setWidth 8 ∧ exec i = byteBitStep (takeBit x complete) := by
  simp only [List.mem_cons, List.not_mem_nil, or_false, Prod.mk.injEq] at hi
  rcases hi with ⟨rfl, rfl⟩ | ⟨rfl, rfl⟩
  · exact ⟨0, rfl, h.exec_zero⟩
  · exact ⟨1, rfl, h.exec_one⟩

/-- A bit that does not complete its byte. -/
theorem exec_mid (h : ByteInstrs st iz io ie ifr complete) (hi : (i, b) ∈ [(iz, 0), (io, 1)])
    (h7 : s.ctx.bidx.toNat < 7) (he : NextEdges s e f) :
    exec i s = .next
      { s with
        cur := f, k := s.k + 2
        ustart := if s.ctx.bidx = 0 then s.cur else s.ustart
        ctx.shreg := s.ctx.shreg <<< 1 ||| b
        ctx.bidx := s.ctx.bidx + 1 } := by
  obtain ⟨x, rfl, hexec⟩ := h.exec_bit hi
  rw [hexec, byteBitStep_ready he]
  refine takeBit_mid ?_ x complete
  exact h7

/-- The eighth bit of a byte: the byte is acted on with the byte registers cleared
(41_bit_assembler.md R143). -/
theorem exec_last (h : ByteInstrs st iz io ie ifr complete) (hi : (i, b) ∈ [(iz, 0), (io, 1)])
    (h7 : s.ctx.bidx = 7) (he : NextEdges s e f) :
    exec i s = complete (s.ctx.shreg <<< 1 ||| b)
      { s with cur := f, k := s.k + 2, ctx.shreg := 0, ctx.bidx := 0 } := by
  obtain ⟨x, rfl, hexec⟩ := h.exec_bit hi
  have hstart : s.ctx.bidx ≠ 0 := by rw [h7]; decide
  rw [hexec, byteBitStep_ready he, if_neg hstart]
  refine takeBit_last ?_ x complete
  exact h7

end ByteInstrs

/-- Settles O22: the three byte states differ only in what they do with a complete byte. -/
theorem byteBitsShiftIn : Obligations.ByteBitsShiftIn := by
  rintro s e f i b (⟨-, h⟩ | ⟨-, h⟩ | ⟨-, h⟩) h7 he
  · exact commandInstrs.exec_mid h h7 he
  · exact dataInstrs.exec_mid h h7 he
  · exact checksumInstrs.exec_mid h h7 he

/-- The number of a command byte's mode as a record word (30_encoding.md R96). -/
theorem setWidth_modeOf_code (v : BitVec 8) :
    (modeOf v).code.setWidth 64 = (if v = 2 then 2 else if v = 1 then 1 else 0 : Word64) := by
  rw [modeOf_code]
  split
  · rfl
  · split <;> rfl

/-- Settles O23: the completed byte is the shift register with the bit shifted in. -/
theorem commandByteCompletes : Obligations.CommandByteCompletes := by
  intro s e f i b _ hi h7 he v m
  rw [← setWidth_modeOf_code, BitVec.ofNat_toNat, commandInstrs.exec_last hi h7 he]
  rfl

/-- A store in bounds of the car buffer. -/
theorem car_setIfInBounds (car : Vector (BitVec 8) 6) {n : Nat} (v : BitVec 8) (h : n < 6) :
    car.setIfInBounds n v = car.set n v h := by
  ext j hj
  rw [Vector.getElem_setIfInBounds, Vector.getElem_set]

/-- Settles O24: `car[carIndex]` exists exactly below index 6, and there the next index does not wrap. -/
theorem dataByteCompletes : Obligations.DataByteCompletes := by
  intro s e f i b _ hi h7 he v expected
  rw [dataInstrs.exec_last hi h7 he]
  refine ⟨fun hcar => ?_, fun hcar => if_neg (Nat.not_lt.2 hcar)⟩
  refine (if_pos hcar).trans ?_
  rw [← setWidth_succ_eq_ofNat, ← carIndex_succ hcar, ← car_setIfInBounds s.ctx.car v hcar,
    BitVec.ofNat_toNat]
  rfl

/-- Settles O25: CksCheck flags a mismatch and nothing else. -/
theorem checksumByteCompletes : Obligations.ChecksumByteCompletes := by
  intro s e f i b _ hi h7 he r
  rw [BitVec.ofNat_toNat, BitVec.ofNat_toNat, checksumInstrs.exec_last hi h7 he]
  rfl

/-- A failed bit of a byte state raises the error that spans the byte (42_framer.md R175). -/
theorem byteBitStep_bitFail {s : State} {e f : Pos} (he : NextEdges s e f) (kind : ErrorKind) :
    let u := if s.ctx.bidx = 0 then s.cur else s.ustart
    byteBitStep (fun t => .next (bitFail kind t)) s =
      .next (afterError { s with cur := f, k := s.k + 2, ustart := u } kind.code kind.flag u f) :=
  byteBitStep_ready he _

/-- Settles O26: every instruction of the three lists is a failed bit of the kind that its code and flag
name. -/
theorem byteErrorsReturnToHunt : Obligations.ByteErrorsReturnToHunt := by
  intro s e f i kind flags h he
  simp only [List.mem_cons, List.not_mem_nil, or_false, Prod.mk.injEq] at h
  have hfail := byteBitStep_bitFail he
  rcases h with ⟨-, h⟩ | ⟨-, h⟩ | ⟨-, h⟩
  all_goals
    rcases h with ⟨rfl, rfl, rfl⟩ | ⟨rfl, rfl, rfl⟩
    exacts [hfail .bitError, hfail .framingError]

/-! ## An instruction without its edges -/

/-- The fifteen instructions that need one edge begin by asking for it (42_framer.md R160). -/
theorem exec_of_edgesNeeded_one {i : Instr} (h : edgesNeeded i = 1) (s : State) :
    ∃ run, exec i s = whenReady (supplyOne s) s run := by
  cases i with
  | huntZero | huntOne | huntError | preambleZero | preambleOne | preambleGap | preambleError
  | packetEndZero | packetEndOne | packetEndGap | packetEndError | gapSkipZero | gapSkipOne
  | gapSkipGap | gapSkipError => exact ⟨_, rfl⟩
  | _ => exact absurd h (by decide)

/-- The twenty-four instructions that need two edges begin by asking for both (42_framer.md R160). -/
theorem exec_of_edgesNeeded_two {i : Instr} (h : edgesNeeded i = 2) (s : State) :
    ∃ run, exec i s = whenReady (supplyTwo s) s run := by
  cases i with
  | huntZero | huntOne | huntError | preambleZero | preambleOne | preambleGap | preambleError
  | packetEndZero | packetEndOne | packetEndGap | packetEndError | gapSkipZero | gapSkipOne
  | gapSkipGap | gapSkipError | halted => exact absurd h (by decide)
  | _ => exact ⟨_, rfl⟩

theorem edgesNeeded_of_ne_halted {i : Instr} (h : i ≠ .halted) :
    edgesNeeded i = 1 ∨ edgesNeeded i = 2 := by
  cases i with
  | halted => exact absurd rfl h
  | _ => decide

/-- Settles O31: whatever the instruction goes on to do, the common beginning answers first. -/
theorem execWithoutItsEdges : Obligations.ExecWithoutItsEdges := by
  intro i s hi
  rcases edgesNeeded_of_ne_halted hi with hn | hn
  · obtain ⟨run, hrun⟩ := exec_of_edgesNeeded_one hn s
    rw [hn, hrun]
    refine ⟨fun hmissing => ?_, fun e f he _ hlate => ?_⟩
    · rw [supplyOne_of_none s (List.getElem?_eq_none (Nat.le_of_lt_succ hmissing)),
        whenReady_missing]
      rfl
    · have hle : e ≤ s.cur := hlate.resolve_right fun h => absurd h.1 (by decide)
      rw [supplyOne_of_late s e he (BitVec.not_lt.2 hle)]
      rfl
  · obtain ⟨run, hrun⟩ := exec_of_edgesNeeded_two hn s
    rw [hn, hrun]
    refine ⟨fun hmissing => ?_, fun e f he hf hlate => ?_⟩
    · rw [supplyTwo_of_none s (List.getElem?_eq_none (Nat.le_of_lt_succ hmissing)),
        whenReady_missing]
      rfl
    · have hdisorder : ¬ (s.cur < e ∧ e < f) := by
        rintro ⟨hce, hef⟩
        exact hlate.elim (BitVec.not_le.2 hce) fun h => BitVec.not_le.2 hef h.2
      rw [supplyTwo_of_some s e f he hf, if_neg hdisorder]
      rfl

/-! ## The step runs the fetched instruction -/

/-- With cancel lowered, noting a transition is no operation. -/
theorem mapNext_noteTransition {s : State} (h : s.cancel = false) (o : StepResult) :
    mapNext (noteTransition s) o = o := by
  cases o with
  | next t => exact congrArg Host.Outcome.next (noteTransition_of_cancel_false h t)
  | fault r | refused r => rfl

theorem runKey_of_decodeKey {s : State} {key : BitVec 6} {i : Instr} (h : decodeKey key = .ok i) :
    runKey s key = mapNext (noteTransition s) (exec i s) := by
  rw [runKey, h]

/-- Where nothing stops or cancels it, a running step is the instruction it fetches. -/
theorem step_eq_exec {s : State} {key : BitVec 6} {i : Instr} (ho : Ordinary s)
    (hr : isRunning s.st = true) (hk : fetchKey s = .ready key) (hd : decodeKey key = .ok i) :
    step s = exec i s := by
  have ⟨_, hcancel, _⟩ := ho
  rw [step_ordinary ho hr, hk, whenReady, runKey_of_decodeKey hd, mapNext_noteTransition hcancel]

/-- HALTED, but after an EDGE_FAULT, is a next state equal to the state (log entry 1). -/
theorem step_of_halted {s : State} (hst : s.st = St.halted) (hsafe : s.Safe) :
    step s = .next s := by
  have hfault : edgeFaulted s = false := by simp [edgeFaulted, hsafe]
  have hkey : decodeKey (keyOf s.st 0) = .ok .halted := by rw [hst]; rfl
  have hnote : noteTransition s s = s := by cases s; simp [noteTransition]
  have hrun : runKey s (keyOf s.st 0) = .next s := by
    rw [runKey_of_decodeKey hkey]
    exact congrArg Host.Outcome.next hnote
  rw [step, hfault, if_neg Bool.false_ne_true, if_pos hst, hrun, ite_self]

/-- The state code 0xF decodes to HALTED whatever the input bits (30_encoding.md R92). -/
theorem decodeKey_of_haltedCode {key : BitVec 6} (h : key.extractLsb' 2 4 = St.halted) :
    decodeKey key = .ok .halted := by
  revert key; decide

/-- Settles O40: with cancel raised the step notes the transition with the free choice used up. -/
theorem stepRunsTheDecodedInstruction : Obligations.StepRunsTheDecodedInstruction := by
  intro s key i hheld hd
  refine ⟨fun ho hr hk => step_eq_exec ho hr hk hd, ?_, fun hst hsafe hkey => ?_⟩
  · intro hr hv hb hcar hcancel hfree hk
    have hchoice : nextChoice s = { s with choice := s.choice + 1 } := by
      rw [nextChoice, if_pos hcancel]
    rw [step_of_not_cancelTaken hheld hr hv hb hcar (cancelTaken_eq_false (.inr hfree)), hchoice,
      hk, whenReady, runKey_of_decodeKey hd]
    congr 1
    funext t
    simp only [noteTransition, hcancel, Bool.true_and]
  · cases hd.symm.trans (decodeKey_of_haltedCode (hkey.trans hst))
    exact step_of_halted hst hsafe

/-- The reserved codes are neither HALTED nor running (30_encoding.md R91). -/
theorem not_running_of_reserved {x : BitVec 4} (h : 0xA ≤ x.toNat ∧ x.toNat ≤ 0xE) :
    x ≠ St.halted ∧ isRunning x = false := by
  revert x; decide

/-- Settles O41: each stop is one test of the step, and the tests before it fail. -/
theorem whereTheBlockHasNoStep : Obligations.WhereTheBlockHasNoStep := by
  intro s
  refine ⟨?_, fun hheld hst hc => ?_, fun hheld hst => ?_, fun hheld hst hv => ?_,
    fun hheld hst hv hstuck => ?_⟩
  · rintro (⟨hst, hsafe⟩ | hheld)
    · exact step_of_halted hst hsafe
    · rw [step, if_pos hheld]
  · have hfault : edgeFaulted s = true := by simp [edgeFaulted, hst, hc]
    simp only [step, hheld, hfault, Bool.false_eq_true, if_false, if_true]
  · obtain ⟨hne, hr⟩ := not_running_of_reserved hst
    simp only [step, hheld, edgeFaulted_of_running hne, if_neg hne, hr, Bool.false_eq_true,
      Bool.not_false, if_false, if_true]
  · have hr : isRunning s.st = true := decide_eq_true hst
    have hne := ne_halted_of_isRunning hr
    simp only [step, hheld, edgeFaulted_of_running hne, if_neg hne, hr, hv, Bool.false_eq_true,
      Bool.not_true, Bool.not_false, if_false, if_true]
  · have hr : isRunning s.st = true := decide_eq_true hst
    have hne := ne_halted_of_isRunning hr
    have hstay : isStuck s = true := by simpa [isStuck] using hstuck
    simp only [step, hheld, edgeFaulted_of_running hne, if_neg hne, hr, hv, hstay,
      Bool.false_eq_true, Bool.not_true, if_false, if_true]

/-! ## The step of each state -/

section StepOfInput

variable {s : State} {e f : Pos} {st : BitVec 4} {i : Instr}

/-- HUNT steps by Consume's symbol. -/
theorem step_of_consume {y : HalfBitSymbol} (ho : Ordinary s) (hst : s.st = St.hunt)
    (he : NextEdge s e) (hy : classify s.cfg (samples s.cur e) false = y)
    (hd : decodeKey (St.hunt ++ y.code) = .ok i) : step s = exec i s := by
  have hkey := fetchKey_of_nextEdge (by rw [hst]; rfl) he
  rw [symbolInput_of_hunt hst, hy] at hkey
  exact step_eq_exec ho (by rw [hst]; rfl) hkey (by rwa [hst])

/-- PREAMBLE, PACKET_END and GAP_SKIP step by Peek's symbol. -/
theorem step_of_peek {y : HalfBitSymbol} (ho : Ordinary s) (hst : s.st = st)
    (hpeek : st = St.preamble ∨ st = St.packetEnd ∨ st = St.gapSkip) (he : NextEdge s e)
    (hy : classify s.cfg (samples s.cur e) true = y) (hd : decodeKey (st ++ y.code) = .ok i) :
    step s = exec i s := by
  subst hst
  obtain ⟨hne, hone, hr⟩ : s.st ≠ St.hunt ∧ needsTwoEdges s.st = false ∧ isRunning s.st = true := by
    rcases hpeek with hst | hst | hst <;> rw [hst] <;> decide
  have hkey := fetchKey_of_nextEdge hone he
  rw [symbolInput_of_ne_hunt hne, hy] at hkey
  exact step_eq_exec ho hr hkey hd

/-- The two-edge states are running states. -/
theorem isRunning_of_needsTwoEdges {x : BitVec 4} (h : needsTwoEdges x = true) :
    isRunning x = true := by
  revert x; decide

/-- The six bit states step by AssembleBit's bit. -/
theorem step_of_bit {y : LogicalBit} (ho : Ordinary s) (hst : s.st = st)
    (htwo : needsTwoEdges st = true) (he : NextEdges s e f) (hy : (assembleBit e f s).1 = y)
    (hd : decodeKey (st ++ y.code) = .ok i) : step s = exec i s := by
  subst hst
  have hkey := fetchKey_of_nextEdges htwo he
  rw [hy] at hkey
  exact step_eq_exec ho (isRunning_of_needsTwoEdges htwo) hkey hd

end StepOfInput

/-- Settles O32: ZERO and ERROR, all that Consume answers outside the ONE window, have the same answer. -/
theorem huntStep : Obligations.HuntStep := by
  intro s e ho hst he
  obtain ⟨hone, hzero, herror⟩ := huntInstructions s e hst he
  split
  next hw =>
    exact (step_of_consume ho hst he ((classify_eq_one_iff ..).2 hw) rfl).trans hone
  next hw =>
    cases hy : classify s.cfg (samples s.cur e) false with
    | zero => exact (step_of_consume ho hst he hy rfl).trans hzero
    | error => exact (step_of_consume ho hst he hy rfl).trans herror
    | one => exact absurd ((classify_eq_one_iff ..).1 hy) hw
    | gap => exact absurd hy (classify_consume_ne_gap _ _)

/-- Settles O33: each outcome of Peek runs its instruction. -/
theorem preambleStep : Obligations.PreambleStep := by
  intro s e ho hst he
  have hrun {i : Instr} {y : HalfBitSymbol} := step_of_peek (i := i) (y := y) ho hst (.inl rfl) he
  obtain ⟨hgap, herror⟩ := (peekErrorsReturnToHunt s e he).1 hst
  cases hy : classify s.cfg (samples s.cur e) true with
  | one => exact (hrun hy rfl).trans (preambleOneCounts s e hst he)
  | zero => exact (hrun hy rfl).trans (preambleZeroEmits s e hst he)
  | gap => exact (hrun hy rfl).trans hgap
  | error => exact (hrun hy rfl).trans herror

/-- Settles O38: each outcome of Peek runs its instruction, and the three that end the skip have the same
answer. -/
theorem packetEndAndGapSkipSteps : Obligations.PacketEndAndGapSkipSteps := by
  intro s e ho he clean pebit
  refine ⟨fun hst => ?_, fun hst => ?_⟩
  · have hrun {i : Instr} {y : HalfBitSymbol} :=
      step_of_peek (i := i) (y := y) ho hst (.inr (.inl rfl)) he
    obtain ⟨hzero, herror⟩ := (peekErrorsReturnToHunt s e he).2 hst
    cases hy : classify s.cfg (samples s.cur e) true with
    | gap => exact (hrun hy rfl).trans (packetEndGapEmits s e hst he)
    | one => exact (hrun hy rfl).trans (packetEndOneCountsOnce s e hst he)
    | zero => exact (hrun hy rfl).trans hzero
    | error => exact (hrun hy rfl).trans herror
  · have hrun {i : Instr} {y : HalfBitSymbol} :=
      step_of_peek (i := i) (y := y) ho hst (.inr (.inr rfl)) he
    obtain ⟨hskip, hend⟩ := gapSkipInstructions s e hst he
    cases hy : classify s.cfg (samples s.cur e) true with
    | gap => exact (hrun hy rfl).trans hskip
    | one => exact (hrun hy rfl).trans (hend _ (by decide))
    | zero => exact (hrun hy rfl).trans (hend _ (by decide))
    | error => exact (hrun hy rfl).trans (hend _ (by decide))

theorem cksInitial_eq_ite (f : CksumFormula) :
    cksInitial f = if f = .xorData then 0x00 else 0xFF := by
  cases f <;> rfl

theorem foldCommand_eq_ite (f : CksumFormula) (cks v : BitVec 8) :
    foldCommand f cks v = if f = .ffCmdData then cks ^^^ v else cks := by
  cases f <;> rfl

/-- The three error instructions of a start-bit state (42_framer.md R164, R167, R170, R175). -/
structure StartErrors (st : BitVec 4) (one bitError framingError : Instr) : Prop where
  key_one : decodeKey (st ++ LogicalBit.one.code) = .ok one
  key_bitError : decodeKey (st ++ LogicalBit.bitError.code) = .ok bitError
  key_framingError : decodeKey (st ++ LogicalBit.framingError.code) = .ok framingError
  exec_one (s : State) : exec one s = startBitStep (bitFail .unexpectedOne) s
  exec_bitError (s : State) : exec bitError s = startBitStep (bitFail .bitError) s
  exec_framingError (s : State) : exec framingError s = startBitStep (bitFail .framingError) s

theorem startErrors_of_startState {st : BitVec 4}
    (h : st = St.packetStart ∨ st = St.dataStart ∨ st = St.checksumStart) :
    needsTwoEdges st = true ∧ ∃ io ie ifr, StartErrors st io ie ifr := by
  rcases h with rfl | rfl | rfl
  · exact ⟨rfl, .packetStartOne, .packetStartBitError, .packetStartFramingError,
      by constructor <;> intros <;> rfl⟩
  · exact ⟨rfl, .dataStartOne, .dataStartBitError, .dataStartFramingError,
      by constructor <;> intros <;> rfl⟩
  · exact ⟨rfl, .checksumStartOne, .checksumStartBitError, .checksumStartFramingError,
      by constructor <;> intros <;> rfl⟩

/-- Settles O34: ZERO goes on by the state, each other outcome is the same error in all three. -/
theorem startBitSteps : Obligations.StartBitSteps := by
  intro s e f ho hst he u frame
  obtain ⟨htwo, io, ie, ifr, herr⟩ := startErrors_of_startState hst
  have hrun {i : Instr} {y : LogicalBit} := step_of_bit (i := i) (y := y) ho rfl htwo he
  have hfail := startBitStep_bitFail he
  cases hy : (assembleBit e f s).1 with
  | zero =>
    rcases hst with hst | hst | hst
    · rw [hrun hy (by rw [hst]; rfl), packetStartZeroEmits s e f hst he, if_pos hst,
        ← cksInitial_eq_ite]
      rfl
    · rw [hrun hy (by rw [hst]; rfl),
        dataStartZeroEmits s e f _ _ (.inl ⟨rfl, hst, rfl⟩) he, if_neg (by rw [hst]; decide),
        if_pos hst]
    · rw [hrun hy (by rw [hst]; rfl),
        dataStartZeroEmits s e f _ _ (.inr ⟨rfl, hst, rfl⟩) he, if_neg (by rw [hst]; decide),
        if_neg (by rw [hst]; decide)]
  | one => exact (hrun hy herr.key_one).trans ((herr.exec_one s).trans (hfail _))
  | bitError => exact (hrun hy herr.key_bitError).trans ((herr.exec_bitError s).trans (hfail _))
  | framingError =>
    exact (hrun hy herr.key_framingError).trans ((herr.exec_framingError s).trans (hfail _))

/-- The step of a byte state: a ZERO or ONE is shifted in, and `take` says what the state makes of it;
the two errors span the byte from its first edge (42_framer.md R165, R168, R171, R175). -/
theorem ByteInstrs.step_eq {st : BitVec 4} {iz io ie ifr : Instr}
    {complete : BitVec 8 → State → StepResult} (h : ByteInstrs st iz io ie ifr complete)
    {s : State} {e f start : Pos} {take : BitVec 8 → State} (ho : Ordinary s) (hst : s.st = st)
    (he : NextEdges s e f) (hstart : start = if s.ctx.bidx = 0 then s.cur else s.ustart)
    (hmid : s.ctx.bidx ≠ 7 → ∀ b, take b =
      { s with
        cur := f, k := s.k + 2, ustart := start
        ctx.shreg := s.ctx.shreg <<< 1 ||| b, ctx.bidx := s.ctx.bidx + 1 })
    (hlast : s.ctx.bidx = 7 → start = s.ustart → ∀ i b, (i, b) ∈ [(iz, 0), (io, 1)] →
      exec i s = .next (take b)) :
    let u := { s with cur := f, k := s.k + 2, ustart := start }
    step s = .next
      (match (assembleBit e f s).1 with
        | .zero => take 0
        | .one => take 1
        | .bitError => afterError u 4 0b0001 start f
        | .framingError => afterError u 5 0b0010 start f) := by
  subst hst hstart
  have htwo : needsTwoEdges s.st = true := by
    rcases (isByteState_iff _).1 h.byteState with hst | hst | hst <;> rw [hst] <;> rfl
  have hrun {i : Instr} {y : LogicalBit} := step_of_bit (i := i) (y := y) ho rfl htwo he
  have htake (i : Instr) (b : BitVec 8) (hi : (i, b) ∈ [(iz, 0), (io, 1)]) :
      exec i s = .next (take b) := by
    have ⟨_, _, _, hlt, _⟩ := ho
    by_cases h7 : s.ctx.bidx = 7
    · exact hlast h7 (if_neg (by rw [h7]; decide)) i b hi
    · have hne : s.ctx.bidx.toNat ≠ 7 := fun hn => h7 (BitVec.eq_of_toNat_eq hn)
      rw [hmid h7 b, h.exec_mid hi (by omega) he]
  have hfail := byteBitStep_bitFail he
  cases hy : (assembleBit e f s).1 with
  | zero => exact (hrun hy h.key_zero).trans (htake _ _ (by simp))
  | one => exact (hrun hy h.key_one).trans (htake _ _ (by simp))
  | bitError => exact (hrun hy h.key_bitError).trans (h.exec_bitError ▸ hfail .bitError)
  | framingError =>
    exact (hrun hy h.key_framingError).trans (h.exec_framingError ▸ hfail .framingError)

/-- Settles O35: the eighth bit is O23's. -/
theorem commandByteStep : Obligations.CommandByteStep := by
  intro s e f ho hst he start u take
  refine commandInstrs.step_eq ho hst he rfl (fun h7 b => if_neg h7) fun h7 hstart i b hi => ?_
  rw [commandByteCompletes s e f i b hst hi h7 he]
  simp only [take, if_pos h7, u, hstart, ← foldCommand_eq_ite]
  rfl

/-- Settles O36: the eighth bit is O24's, where the car buffer has the entry. -/
theorem dataByteStep : Obligations.DataByteStep := by
  intro s e f hcar ho hst he start u expected take
  refine dataInstrs.step_eq ho hst he rfl (fun h7 b => if_neg h7) fun h7 hstart i b hi => ?_
  rw [(dataByteCompletes s e f i b hst hi h7 he).1 hcar]
  simp only [take, if_pos h7, u, hstart]
  rfl

/-- Settles O37: the eighth bit is O25's, a mismatch or not. -/
theorem checksumByteStep : Obligations.ChecksumByteStep := by
  intro s e f ho hst he start u take
  refine checksumInstrs.step_eq ho hst he rfl (fun h7 b => if_neg h7) fun h7 hstart i b hi => ?_
  rw [checksumByteCompletes s e f i b hst hi h7 he]
  simp only [take, if_pos h7, u, hstart]

/-! ## The next-state graph -/

/-- Every running state can return to HUNT and can halt (42_framer.md R176). -/
theorem graphEdge_of_isRunning {a : BitVec 4} (h : isRunning a = true) :
    graphEdge a St.hunt = true ∧ graphEdge a St.halted = true := by
  revert a; decide

/-- A byte state stays until its byte is complete (42_framer.md R176). -/
theorem graphEdge_self_of_isByteState {a : BitVec 4} (h : isByteState a = true) :
    graphEdge a a = true := by
  revert a; decide

/-- A fetched instruction of a running state follows an edge of the graph. -/
theorem Runs.graphEdge {s u : State} (h : Runs s u) (hr : isRunning s.st = true) :
    graphEdge s.st u.st = true := by
  obtain ⟨hhunt, -⟩ := graphEdge_of_isRunning hr
  cases h with
  | preambleFail | startFail | byteFail | endOne | endFail | skipEnd => exact hhunt
  | huntOne e hst =>
    rw [countPreamble_st]
    split
    · rw [hst]; rfl
    · rw [edgePop_st, hst]; rfl
  | huntMiss e hst | preambleOne e hst | skipGap e hst => exact hst ▸ rfl
  | preambleZero e hst | packetStart e f hst | dataStart e f hst | checksumStart e f hst
  | endGap e hst => rw [hst]; rfl
  | byteMid e f b hst =>
    rw [shiftIn_st, afterByteBit_st]
    exact graphEdge_self_of_isByteState hst
  | commandDone e f b hst he hb u hu =>
    obtain rfl := completeCommand_next hu
    rw [hst]; rfl
  | dataDone e f b hst he hb u hu =>
    obtain ⟨-, x, rfl, ⟨rfl, -⟩ | ⟨rfl, -⟩⟩ := completeData_next hu <;> rw [hst] <;> rfl
  | checksumDone e f b hst he hb u hu =>
    obtain rfl := completeChecksum_next hu
    rw [hst]; rfl

/-- Settles O54: a step that neither runs an instruction nor halts changes at most the counter of free
choices. -/
theorem stepFollowsTheGraph : Obligations.StepFollowsTheGraph := by
  intro s t h
  rcases step_next h with ⟨-, rfl⟩ | ⟨-, -, hr, -, -, hcase⟩
  · exact .inr rfl
  · have hhalt := (graphEdge_of_isRunning hr).2
    rcases hcase with
      ⟨-, rfl⟩ | ⟨-, ⟨-, rfl⟩ | ⟨-, rfl⟩ | ⟨-, rfl⟩ | ⟨i, u, hf, hu, rfl⟩⟩
    · exact .inl hhalt
    · exact .inl hhalt
    · exact .inr rfl
    · exact .inl hhalt
    · have hrn : isRunning (nextChoice s).st = true := hr
      exact .inl ((exec_runs hrn hf hu).graphEdge hrn)

/-! ## The ZERO ahead of PACKET_START -/

/-- The only edge of the graph into PACKET_START comes from PREAMBLE (42_framer.md R176). -/
theorem eq_preamble_of_graphEdge {a : BitVec 4} (h : graphEdge a St.packetStart = true) :
    a = St.preamble := by
  revert a; decide

/-- PREAMBLE goes to PACKET_START on the ZERO it peeked, and leaves it there (42_framer.md R163). -/
theorem Runs.zeroAhead {s u : State} (h : Runs s u) (hr : isRunning s.st = true) : ZeroAhead u := by
  intro hu
  have hs : s.st = St.preamble := eq_preamble_of_graphEdge (hu ▸ h.graphEdge hr)
  cases h with
  | preambleZero e _ he hc => exact ⟨e, he, hc⟩
  | preambleOne => exact absurd (hs.symm.trans hu) (by decide)
  | preambleFail => simp at hu
  | huntOne e hst | huntMiss e hst | packetStart e f hst | dataStart e f hst
  | checksumStart e f hst | commandDone e f b hst | dataDone e f b hst | checksumDone e f b hst
  | endGap e hst | endOne e hst | endFail e k hst | skipGap e hst | skipEnd e hst =>
    exact absurd (hst.symm.trans hs) (by decide)
  | startFail e f k hst => rw [hs] at hst; exact absurd hst (by decide)
  | byteFail e f k hst | byteMid e f b hst => rw [hs] at hst; exact absurd hst (by decide)

/-- A bit whose first half-bit is a ZERO is not a ONE (41_bit_assembler.md R140). -/
theorem assembleBit_ne_one_of_zero {s : State} {e : Pos} (f : Pos)
    (h : classify s.cfg (intervalLength s.cur e) true = .zero) : (assembleBit e f s).1 ≠ .one := by
  intro hone
  obtain ⟨-, -, -, hbit, -⟩ := assembleBitConsumesTwo e f s
  obtain ⟨-, hfirst, -⟩ := hbit.1 hone
  exact ((classify_eq_zero_iff ..).1 h).1 ((classify_eq_one_iff ..).1 hfirst)

/-- With a ZERO ahead in PACKET_START the key PACKET_START.ONE is not fetched (90_conflicts.md C14). -/
theorem fetchKey_ne_packetStartOne {t : State} (h : ZeroAhead t) : fetchKey t ≠ .ready 0b001001 := by
  intro hk
  have hkey {x : BitVec 2} (hx : 0b001001 = keyOf t.st x) : t.st = St.packetStart ∧ x = 0b01 := by
    constructor
    · rw [← keyOf_st t.st x, ← hx]; rfl
    · rw [← keyOf_input t.st x, ← hx]; rfl
  rcases fetchKey_ready hk with ⟨hone, e, -, hx⟩ | ⟨-, e, f, ⟨he, -⟩, hx⟩
  · rw [(hkey hx).1] at hone
    exact absurd hone (by decide)
  · obtain ⟨hst, hbit⟩ := hkey hx
    obtain ⟨e', ⟨he', -⟩, hzero⟩ := h hst
    cases he.symm.trans he'
    exact assembleBit_ne_one_of_zero f hzero (bit_code_inj (b := .one) hbit)

/-- Settles O52: `ZeroAhead` reads no field that a halt, a free choice or the note of a transition writes
in PACKET_START, and every instruction establishes it. -/
theorem packetStartOneIsUnreachable : Obligations.PacketStartOneIsUnreachable := by
  intro s t hs h
  have ht : ZeroAhead t :=
    step_keeps h hs hs (fun _ _ hst => by simp at hst) fun _ hr hu => hu.zeroAhead hr
  exact ⟨ht, fetchKey_ne_packetStartOne ht⟩

/-! ## Every legal state has a next state -/

theorem exists_next_whenReady {α : Type} {need : Supply α} {s : State} {run : α → StepResult}
    (h : ∀ a, need = .ready a → ∃ t, run a = .next t) : ∃ t, whenReady need s run = .next t := by
  cases need with
  | ready a => exact h a rfl
  | exhausted | waiting | edgeFault => exact ⟨_, rfl⟩

/-- A byte state takes a bit wherever it can act on a complete byte; no bit before that moves
`carIndex`. -/
theorem exists_next_takeBit {s : State} {b : BitVec 1} {complete : BitVec 8 → State → StepResult}
    (h : ∀ v t, t.ctx.carIndex = s.ctx.carIndex → ∃ u, complete v t = .next u) :
    ∃ u, byteBitStep (takeBit b complete) s = .next u := by
  refine exists_next_whenReady fun p _ => ?_
  have hcar : (assembleBit p.1 p.2 (markByte s)).2.ctx.carIndex = s.ctx.carIndex := by simp
  unfold takeBit
  dsimp only
  split
  · exact h _ _ hcar
  · exact ⟨_, rfl⟩

/-- The car buffer has an entry for every data byte of a legal state (42_framer.md R169). -/
theorem carIndex_lt_of_legal {s : State} (hl : Legal s) (hst : s.st = St.dataByte) :
    s.ctx.carIndex.toNat < 6 := by
  obtain ⟨-, hv, -, -, -, hdata, -⟩ := hl
  exact (hdata (.inr hst)).trans_le (expectedBytes_range hv _).2

/-- In a legal state the fetched instruction answers a next state: the one meaning that can fault is
given its entry of the car buffer. -/
theorem exists_exec_next {s : State} {i : Instr} (hl : Legal s) (hr : isRunning s.st = true)
    (hf : Fetches s i) : ∃ u, exec i s = .next u := by
  have hdata (b : BitVec 1) (hst : s.st = St.dataByte) :
      ∃ u, byteBitStep (takeBit b completeData) s = .next u :=
    exists_next_takeBit fun v t ht => ⟨_, if_pos (ht ▸ carIndex_lt_of_legal hl hst)⟩
  cases i with
  | dataByteZero =>
    obtain ⟨-, -, -, hst, -⟩ := fetches_two hr hf rfl
    exact hdata 0 hst
  | dataByteOne =>
    obtain ⟨-, -, -, hst, -⟩ := fetches_two hr hf rfl
    exact hdata 1 hst
  | commandByteZero | commandByteOne | checksumByteZero | checksumByteOne =>
    exact exists_next_takeBit fun _ _ _ => ⟨_, rfl⟩
  | halted => exact ⟨_, rfl⟩
  | _ => exact exists_next_whenReady fun _ _ => ⟨_, rfl⟩

/-- Every key of a running state but HUNT.GAP decodes (30_encoding.md R91, R95). -/
theorem exists_decodeKey {key : BitVec 6} (hr : isRunning (key.extractLsb' 2 4) = true)
    (hne : key ≠ 0b000010) : ∃ i, decodeKey key = .ok i := by
  have hdecodes : (decodeKey key).isOk = true := by revert key; decide
  cases hd : decodeKey key with
  | ok i => exact ⟨i, rfl⟩
  | error r => rw [hd] at hdecodes; cases hdecodes

/-- A running state fetches the key of an instruction, because Consume never answers GAP
(90_conflicts.md C6). -/
theorem exists_fetches {s : State} {key : BitVec 6} (hr : isRunning s.st = true)
    (hk : fetchKey s = .ready key) : ∃ i, Fetches s i ∧ decodeKey key = .ok i := by
  have hne : key.extractLsb' 2 4 = s.st ∧ key ≠ 0b000010 := by
    rcases fetchKey_ready hk with ⟨-, e, -, rfl⟩ | ⟨htwo, e, f, -, rfl⟩
    · refine ⟨keyOf_st _ _, fun hgap => ?_⟩
      have hst : s.st = St.hunt := by rw [← keyOf_st s.st (symbolInput e s).code, hgap]; rfl
      have hinput : (symbolInput e s).code = HalfBitSymbol.gap.code := by
        rw [← keyOf_input s.st (symbolInput e s).code, hgap]; rfl
      rw [symbolInput_of_hunt hst] at hinput
      exact classify_consume_ne_gap _ _ (symbol_code_inj hinput)
    · refine ⟨keyOf_st _ _, fun hgap => ?_⟩
      have hst : s.st = St.hunt := by
        rw [← keyOf_st s.st (assembleBit e f s).1.code, hgap]; rfl
      rw [hst] at htwo
      exact absurd htwo (by decide)
  obtain ⟨hst, hgap⟩ := hne
  obtain ⟨i, hi⟩ := exists_decodeKey (hst ▸ hr) hgap
  exact ⟨i, ⟨key, hk, hi⟩, hi⟩

/-- A cancellation taken is the halt with CANCELLED, before any edge is looked at
(60_exceptions.md R248, R253). -/
theorem step_of_cancelTaken {s : State} (hheld : s.held = false) (hr : isRunning s.st = true)
    (hv : s.cfg.valid = true) (hb : s.ctx.bidx.toNat < 8) (hcar : s.ctx.carIndex ≠ 7)
    (hc : cancelTaken s = true) : step s = .next (halt .cancelled (nextChoice s)) := by
  have hst : s.st ≠ St.halted := ne_halted_of_isRunning hr
  have hstuck : isStuck s = false := by
    rw [isStuck, decide_eq_false (Nat.not_le.2 hb), beq_false_of_ne hcar]; rfl
  simp only [step, hheld, edgeFaulted_of_running hst, if_neg hst, hr, hv, hstuck, hc,
    Bool.false_eq_true, Bool.not_true, if_false, if_true]

theorem carIndex_ne_seven_of_legal {s : State} (hl : Legal s) : s.ctx.carIndex ≠ 7 := by
  obtain ⟨-, -, -, -, hcar, -, -⟩ := hl
  intro h
  rw [h] at hcar
  exact absurd hcar (by decide)

/-- A legal state is not stuck (10_state.md R27, R30). -/
theorem isStuck_of_legal {s : State} (hl : Legal s) : isStuck s = false := by
  have ⟨_, _, hb, _⟩ := hl
  rw [isStuck, decide_eq_false (Nat.not_le.2 hb),
    beq_false_of_ne (carIndex_ne_seven_of_legal hl)]
  rfl

/-- A legal state that has not halted with EDGE_FAULT has a next state: no signal makes the block fault or
be refused (60_exceptions.md R244). -/
theorem exists_step_next {s : State} (hl : Legal s) (hsafe : s.Safe) : ∃ t, step s = .next t := by
  have ⟨hst, hv, hb, _⟩ := hl
  have hcar := carIndex_ne_seven_of_legal hl
  cases hheld : s.held with
  | true => exact ⟨s, by rw [step, if_pos hheld]⟩
  | false =>
    rcases hst with hr | hst
    · cases hc : cancelTaken s with
      | true => exact ⟨_, step_of_cancelTaken hheld hr hv hb hcar hc⟩
      | false =>
        rw [step_of_not_cancelTaken hheld hr hv hb hcar hc]
        refine exists_next_whenReady fun key hk => ?_
        have hln : Legal (nextChoice s) := hl
        have hrn : isRunning (nextChoice s).st = true := hr
        obtain ⟨i, hf, hd⟩ := exists_fetches hrn hk
        obtain ⟨u, hu⟩ := exists_exec_next hln hrn hf
        exact ⟨_, by rw [runKey_of_decodeKey hd, hu]; rfl⟩
    · exact ⟨s, step_of_halted hst hsafe⟩

/-! ## A finite capture -/

/-- Where the Edge Source keeps its contract, a step records no edge fault (60_exceptions.md R251). -/
theorem step_keeps_safe {s t : State} (hsafe : s.Safe) (hc : CursorAtLastEdge s)
    (hinc : EdgesIncrease s) (h : step s = .next t) : t.Safe := by
  rcases step_next h with ⟨-, rfl⟩ | ⟨-, -, hr, -, -, hcase⟩
  · exact hsafe
  · rcases hcase with ⟨-, rfl⟩ | ⟨-, ⟨-, rfl⟩ | ⟨-, rfl⟩ | ⟨hk, -⟩ | ⟨i, u, hf, hu, rfl⟩⟩
    · exact nofun
    · exact nofun
    · exact hsafe
    · exact absurd hk (fetchKey_ne_edgeFault (s := nextChoice s) hc hinc)
    · have hkept := (exec_runs (s := nextChoice s) hr hf hu).keepsInputs.hcause
      exact fun hfault => hsafe (hkept.symm.trans hfault)

/-- Once the capture has ended no step waits for an edge (20_memory.md R64, R65). -/
theorem fetchKey_ne_waiting {s : State} (h : s.src.ended = true) : fetchKey s ≠ .waiting := by
  have hone : supplyOne s ≠ .waiting := by
    cases he : s.src.edges[s.k]? with
    | none => rw [supplyOne_of_none s he, if_pos h]; nofun
    | some e =>
      by_cases hlt : s.cur < e
      · rw [(supplyOne_ready s e).2 ⟨he, hlt⟩]; nofun
      · rw [supplyOne_of_late s e he hlt]; nofun
  have htwo : supplyTwo s ≠ .waiting := by
    cases hf : s.src.edges[s.k + 1]? with
    | none => rw [supplyTwo_of_none s hf, if_pos h]; nofun
    | some f =>
      obtain ⟨hl, -⟩ := List.getElem?_eq_some_iff.1 hf
      rw [supplyTwo_of_some s _ f (List.getElem?_eq_getElem (Nat.lt_of_succ_lt hl)) hf]
      split <;> nofun
  unfold fetchKey
  split
  · revert htwo; cases supplyTwo s <;> simp [Supply.map]
  · revert hone; cases supplyOne s <;> simp [Supply.map]

/-- The part of the bound on a run that depends on the state: a state that can go on without consuming an
edge has more than the state it goes to (42_framer.md R163, R172, R173). -/
def stepSlack (st : BitVec 4) : Nat :=
  if st = St.packetEnd then 3 else if st = St.preamble ∨ st = St.gapSkip then 2 else 1

theorem stepSlack_range (st : BitVec 4) : 1 ≤ stepSlack st ∧ stepSlack st ≤ 3 := by
  revert st; decide

/-- A bound on the steps until the block halts on an ended capture: two for each edge left, and the slack of
the state (42_framer.md R178). -/
def stepsLeft (s : State) : Nat :=
  if s.st = St.halted then 0 else 2 * (s.src.edges.length - s.k) + stepSlack s.st

/-- An instruction that consumes nothing goes to a state with less slack; one that consumes an edge gains
at most one, and one that consumes two at most two. -/
theorem Runs.slack_lt {s u : State} (h : Runs s u) :
    stepSlack u.st + 2 * s.k < stepSlack s.st + 2 * u.k := by
  have hs := stepSlack_range s.st
  have hu := stepSlack_range u.st
  have two (hk : u.k = s.k + 2) : stepSlack u.st + 2 * s.k < stepSlack s.st + 2 * u.k := by omega
  have one (hk : u.k = s.k + 1) (hslack : stepSlack u.st < stepSlack s.st + 2) :
      stepSlack u.st + 2 * s.k < stepSlack s.st + 2 * u.k := by omega
  cases h with
  | preambleZero e hst | preambleFail e kind hst | endGap e hst | endFail e kind hst
  | skipEnd e hst => exact Nat.add_lt_add_right (by simp [stepSlack, hst]) _
  | huntMiss | preambleOne | skipGap => exact one rfl (Nat.lt_add_of_pos_right (by decide))
  | endOne e hst => exact one rfl (by simp [stepSlack, hst])
  | huntOne e hst =>
    refine one rfl ?_
    rw [countPreamble_st, edgePop_st, hst]
    split <;> decide
  | packetStart | dataStart | checksumStart | startFail => exact two rfl
  | byteFail e f | byteMid e f => exact two (afterByteBit_k e f s)
  | commandDone e f b hst he hb u hu =>
    obtain rfl := completeCommand_next hu
    exact two (afterByteBit_k e f s)
  | dataDone e f b hst he hb u hu =>
    obtain ⟨-, x, rfl, -⟩ := completeData_next hu
    exact two (afterByteBit_k e f s)
  | checksumDone e f b hst he hb u hu =>
    obtain rfl := completeChecksum_next hu
    exact two (afterByteBit_k e f s)

/-- A legal state on an ended capture of increasing edges, its cursor at the last edge it consumed. -/
structure OnFiniteCapture (s : State) : Prop where
  legal : Legal s
  cursor : CursorAtLastEdge s
  increase : EdgesIncrease s
  held : s.held = false
  ended : s.src.ended = true
  safe : s.Safe

theorem OnFiniteCapture.after_step {s t : State} (h : OnFiniteCapture s) (ht : step s = .next t) :
    OnFiniteCapture t := by
  obtain ⟨hcfg, hsrc, -, hheld, -⟩ := step_keepsHostSide ht
  exact ⟨stepKeepsLegal s t h.legal ht, stepKeepsCursorAtLastEdge s t h.cursor ht,
    by simpa only [EdgesIncrease, hcfg, hsrc] using h.increase, hheld.trans h.held,
    hsrc ▸ h.ended, step_keeps_safe h.safe h.cursor h.increase ht⟩

theorem stepsLeft_of_halted {s : State} (h : s.st = St.halted) : stepsLeft s = 0 := if_pos h

theorem stepsLeft_of_ne_halted {s : State} (h : s.st ≠ St.halted) :
    stepsLeft s = 2 * (s.src.edges.length - s.k) + stepSlack s.st := if_neg h

/-- On a finite capture every step halts or brings the halt nearer: it is not stuck and does not wait. -/
theorem OnFiniteCapture.stepsLeft_lt {s t : State} (h : OnFiniteCapture s) (ht : step s = .next t)
    (hst : s.st ≠ St.halted) : stepsLeft t < stepsLeft s := by
  have hpos : 0 < stepsLeft s := by
    rw [stepsLeft_of_ne_halted hst]
    exact Nat.add_pos_right _ (stepSlack_range s.st).1
  have hhalt {c : HaltCause} {u : State} : stepsLeft (halt c u) < stepsLeft s := by
    rwa [stepsLeft_of_halted (halt_st u c)]
  obtain ⟨hk, -⟩ := (h.after_step ht).cursor
  rcases step_next ht with ⟨hstay, -⟩ | ⟨-, -, hr, -, -, hcase⟩
  · rcases hstay with hheld | ⟨hhalted, -⟩ | hstuck
    · exact absurd (h.held.symm.trans hheld) Bool.false_ne_true
    · exact absurd hhalted hst
    · exact absurd ((isStuck_of_legal h.legal).symm.trans hstuck) Bool.false_ne_true
  · rcases hcase with ⟨-, rfl⟩ | ⟨-, ⟨-, rfl⟩ | ⟨hwait, -⟩ | ⟨-, rfl⟩ | ⟨i, u, hf, hu, rfl⟩⟩
    · exact hhalt
    · exact hhalt
    · exact absurd hwait (fetchKey_ne_waiting (s := nextChoice s) h.ended)
    · exact hhalt
    · have hruns := exec_runs (s := nextChoice s) hr hf hu
      have hslack : stepSlack u.st + 2 * s.k < stepSlack s.st + 2 * u.k := hruns.slack_lt
      have hsrc : u.src = s.src := hruns.keepsInputs.src
      have hku : u.k ≤ s.src.edges.length := hsrc ▸ hk
      by_cases hu : u.st = St.halted
      · rwa [stepsLeft_of_halted (s := noteTransition (nextChoice s) u) hu]
      · rw [stepsLeft_of_ne_halted hst,
          stepsLeft_of_ne_halted (s := noteTransition (nextChoice s) u) hu]
        simp only [noteTransition_st, noteTransition_src, noteTransition_k, hsrc]
        omega

theorem run_succ {s t : State} (h : step s = .next t) (n : Nat) :
    Host.Core.run Sys2Proof.core (n + 1) s = Host.Core.run Sys2Proof.core n t := by
  have hcore : Host.Core.step Sys2Proof.core s = .next t := h
  simp only [Host.Core.run, hcore]

/-- A run of as many steps as the bound, or more, ends in HALTED. -/
theorem OnFiniteCapture.run_halts {s : State} (h : OnFiniteCapture s) {n : Nat}
    (hn : stepsLeft s ≤ n) :
    ∃ t : State, Host.Core.run Sys2Proof.core n s = .next t ∧ t.st = St.halted ∧ t.Safe := by
  induction n generalizing s with
  | zero =>
    refine ⟨s, rfl, ?_, h.safe⟩
    by_contra hst
    rw [stepsLeft_of_ne_halted hst] at hn
    have := (stepSlack_range s.st).1
    omega
  | succ n ih =>
    obtain ⟨t, ht⟩ := exists_step_next h.legal h.safe
    rw [run_succ ht]
    refine ih (h.after_step ht) ?_
    by_cases hst : s.st = St.halted
    · cases (step_of_halted hst h.safe).symm.trans ht
      rw [stepsLeft_of_halted hst]
      exact Nat.zero_le n
    · exact Nat.le_of_lt_succ ((h.stepsLeft_lt ht hst).trans_le hn)

/-- Settles O56: HUNT has slack 1, so the bound leaves one step over. -/
theorem finiteCaptureHalts : Obligations.FiniteCaptureHalts := by
  intro s hl hc hinc hheld hended hst
  have hrunning : s.st ≠ St.halted := by rw [hst]; decide
  have ⟨_, _, _, _, _, _, hcause⟩ := hl
  have hsafe : s.Safe := by rw [State.Safe, hcause.2 hrunning]; decide
  have h : OnFiniteCapture s := ⟨hl, hc, hinc, hheld, hended, hsafe⟩
  refine h.run_halts ?_
  have hslack : stepSlack s.st = 1 := by rw [hst]; rfl
  rw [stepsLeft_of_ne_halted hrunning]
  omega

/-! ## What the next packet does not read -/

/-- `s` with another past: another output history, another start of the preamble and another start of the
unit. -/
def withPast (s : State) (o : Output) (p q : Pos) : State :=
  { s with out := o, pstart := p, ustart := q }

/-- The starts of the preamble being counted and of the byte in progress are `p` and `q`: what is left of
the past that a step reads (10_state.md R24, R25). -/
structure KeepsUnits (s : State) (p q : Pos) : Prop where
  pstart : CountsPreamble s → s.pstart = p
  ustart : s.ctx.bidx ≠ 0 → s.ustart = q

theorem sameDecoding_withPast {s : State} {p q : Pos} (h : KeepsUnits s p q) (o : Output) :
    SameDecoding s (withPast s o p q) :=
  ⟨rfl, rfl, rfl, rfl, rfl, rfl, rfl, rfl, rfl, rfl, rfl, rfl, rfl, h.pstart, h.ustart⟩

/-- Two states decode alike where one is the other with another past and the same units in progress. -/
theorem exists_withPast {s u : State} (h : SameDecoding s u) :
    ∃ o p q, u = withPast s o p q ∧ KeepsUnits s p q := by
  cases s
  cases u
  obtain ⟨hst, hcur, hk, hpcnt, hctx, hhcause, hcfg, hsrc, hcancel, hdue, hheld, hchoice, hpolicy,
    hp, hq⟩ := h
  dsimp only at hst hcur hk hpcnt hctx hhcause hcfg hsrc hcancel hdue hheld hchoice hpolicy
  subst_vars
  exact ⟨_, _, _, rfl, hp, hq⟩

/-- From the history `a` to the history `b` the frames `fs` are appended, with a commit for each
(20_memory.md R70). -/
structure Appends (fs : List Frame) (a b : Output) : Prop where
  frames : b.frames = a.frames ++ fs
  commits : b.commits = a.commits + fs.length

/-- `t` and `v` decode alike, and the same frames lead to them from the histories `a` and `b`. -/
structure AlikeNext (a b : Output) (t v : State) : Prop where
  same : SameDecoding t v
  appends : ∃ fs, Appends fs a t.out ∧ Appends fs b v.out

/-- Both steps go on alike, or stop for the same reason. -/
inductive Alike (a b : Output) : StepResult → StepResult → Prop where
  | next {t v : State} (h : AlikeNext a b t v) : Alike a b (.next t) (.next v)
  | fault (r : Fault) : Alike a b (.fault r) (.fault r)
  | refused (r : Refusal) : Alike a b (.refused r) (.refused r)

section Operations

variable {s t : State} {o o' : Output} {p q p' q' : Pos} {a : Output}

theorem appends_nil (a : Output) : Appends [] a a := ⟨(List.append_nil _).symm, rfl⟩

theorem appends_emit (f : Frame) (s : State) : Appends [f] s.out (emit f s).out := ⟨rfl, rfl⟩

/-- An operation that emits nothing and keeps the units in progress. -/
theorem alike_silent (ht : t.out = a) (hkeeps : KeepsUnits t p q) :
    Alike a o (.next t) (.next (withPast t o p q)) :=
  .next ⟨sameDecoding_withPast hkeeps o, [], ht ▸ appends_nil _, appends_nil o⟩

/-- An operation that emits a frame and keeps the units in progress. -/
theorem alike_emits (f : Frame) (ht : Appends [f] a t.out) (ho : Appends [f] o o')
    (hkeeps : KeepsUnits t p q) : Alike a o (.next t) (.next (withPast t o' p q)) :=
  .next ⟨sameDecoding_withPast hkeeps o', [f], ht, ho⟩

/-- Outside HUNT and PREAMBLE no preamble is counted. -/
theorem keepsUnits_of_packet (hh : t.st ≠ St.hunt) (hp : t.st ≠ St.preamble) :
    KeepsUnits t p t.ustart :=
  ⟨fun h => (h.elim hp fun h => hh h.1).elim, fun _ => rfl⟩

/-- On the return to HUNT no unit is in progress (42_framer.md R161). -/
theorem keepsUnits_of_clean (hst : t.st = St.hunt) (hpcnt : t.pcnt = 0)
    (hctx : t.ctx = PacketContext.clear) : KeepsUnits t p q := by
  refine ⟨?_, fun hb => absurd (by rw [hctx]; rfl) hb⟩
  rintro (h | ⟨-, h⟩)
  · exact absurd (hst.symm.trans h) (by decide)
  · exact absurd hpcnt h

/-- A halt keeps a byte in progress and counts no preamble (60_exceptions.md R250). -/
theorem alike_halt (c : HaltCause) (h : KeepsUnits s p q) :
    Alike s.out o (.next (halt c s)) (.next (halt c (withPast s o p q))) :=
  alike_silent (t := halt c s) rfl ⟨fun hc => by simp [CountsPreamble] at hc, h.ustart⟩

/-- The common beginning of a step: both sides have the same edges. -/
theorem alike_whenReady {α : Type} {need : Supply α} {run run' : α → StepResult}
    (h : KeepsUnits s p q) (hrun : ∀ a, need = .ready a → Alike s.out o (run a) (run' a)) :
    Alike s.out o (whenReady need s run) (whenReady need (withPast s o p q) run') := by
  cases need with
  | ready a => exact hrun a rfl
  | exhausted => exact alike_halt _ h
  | waiting => exact alike_silent rfl h
  | edgeFault => exact alike_halt _ h

/-- A start bit begins its unit at the cursor, so nothing of the past is left in it. -/
theorem alike_startBitStep {done : State → State} (h : KeepsUnits s p q)
    (hdone : ∀ t, Alike t.out o (.next (done t)) (.next (done (withPast t o p t.ustart)))) :
    Alike s.out o (startBitStep done s) (startBitStep done (withPast s o p q)) :=
  alike_whenReady h fun x _ => hdone (afterStartBit x.1 x.2 s)

theorem markByte_withPast (h : s.ctx.bidx ≠ 0 → s.ustart = q) :
    markByte (withPast s o p q) = withPast (markByte s) o p (markByte s).ustart := by
  by_cases hb : s.ctx.bidx = 0
  · have hb' : (withPast s o p q).ctx.bidx = 0 := hb
    rw [markByte, markByte, if_pos hb, if_pos hb']; rfl
  · have hb' : (withPast s o p q).ctx.bidx ≠ 0 := hb
    rw [markByte, markByte, if_neg hb, if_neg hb', ← h hb]

/-- A bit of a byte begins its byte at the cursor, or is one of a byte in progress. -/
theorem alike_byteBitStep {done : State → StepResult} (hst : isByteState s.st = true)
    (h : KeepsUnits s p q)
    (hdone : ∀ t, isByteState t.st = true →
      Alike t.out o (done t) (done (withPast t o p t.ustart))) :
    Alike s.out o (byteBitStep done s) (byteBitStep done (withPast s o p q)) := by
  refine alike_whenReady h fun x _ => ?_
  have hx := hdone (afterByteBit x.1 x.2 s) (by rwa [afterByteBit_st])
  have hmark : afterByteBit x.1 x.2 (withPast s o p q) =
      withPast (afterByteBit x.1 x.2 s) o p (afterByteBit x.1 x.2 s).ustart :=
    congrArg (fun m => edgePop x.2 (edgePop x.1 m)) (markByte_withPast h.ustart)
  rwa [afterByteBit_out, ← hmark] at hx

/-- A bit that does not complete its byte leaves its byte in progress. -/
theorem alike_takeBit {b : BitVec 1} {complete : BitVec 8 → State → StepResult}
    (hst : isByteState s.st = true) (h : KeepsUnits s p q)
    (hcomplete : ∀ v t, isByteState t.st = true →
      Alike t.out o (complete v t) (complete v (withPast t o p t.ustart))) :
    Alike s.out o (byteBitStep (takeBit b complete) s)
      (byteBitStep (takeBit b complete) (withPast s o p q)) := by
  refine alike_byteBitStep hst h fun t ht => ?_
  have hpast : takeBit b complete (withPast t o p t.ustart) =
      if byteDone (shiftIn b t) then
        complete (shiftIn b t).ctx.shreg (withPast (clearByte (shiftIn b t)) o p t.ustart)
      else .next (withPast (shiftIn b t) o p t.ustart) := rfl
  rw [hpast, takeBit]
  by_cases hb : byteDone (shiftIn b t) = true
  · simp only [hb, if_true]
    exact hcomplete _ (clearByte (shiftIn b t)) ht
  · simp only [hb, if_false, Bool.false_eq_true]
    exact alike_silent rfl
      ⟨fun hc => absurd hc (not_countsPreamble_of_isByteState (s := shiftIn b t) ht), fun _ => rfl⟩

/-- HUNT counts a ONE from where its preamble began, or from the cursor (42_framer.md R162). -/
theorem alike_countPreamble (hst : s.st = St.hunt) (h : KeepsUnits s p q) (e : Pos) :
    Alike s.out o (.next (countPreamble s.cur (edgePop e s)))
      (.next (countPreamble s.cur (edgePop e (withPast s o p q)))) := by
  refine alike_silent (t := countPreamble s.cur (edgePop e s)) rfl ⟨fun _ => ?_, h.ustart⟩
  have hstart : (if s.pcnt = 0 then s.cur else s.pstart) = if s.pcnt = 0 then s.cur else p := by
    split
    · rfl
    · exact h.pstart (.inr ⟨hst, ‹_›⟩)
  exact hstart

/-- HUNT restarts the count on a half-bit that is not a ONE (42_framer.md R162). -/
theorem alike_restartCount (hst : s.st = St.hunt) (h : KeepsUnits s p q) (e : Pos) :
    Alike s.out o (.next (restartCount (edgePop e s)))
      (.next (restartCount (edgePop e (withPast s o p q)))) := by
  refine alike_silent (t := restartCount (edgePop e s)) rfl ⟨fun hc => ?_, h.ustart⟩
  simp [CountsPreamble, hst] at hc

/-- The error entry emits the frame of the unit it ends and returns to a clean HUNT. -/
theorem alike_raiseError (kind : ErrorKind) (start stop : Pos) (hstart : p' = start) :
    Alike s.out o (.next (raiseError kind start stop s))
      (.next (raiseError kind p' stop (withPast s o p q))) := by
  subst hstart
  exact alike_emits _ (appends_emit _ s) (appends_emit _ (withPast s o p q))
    (keepsUnits_of_clean (t := raiseError kind p' stop s) rfl rfl rfl)

theorem alike_bitFail (kind : ErrorKind) :
    Alike s.out o (.next (bitFail kind s)) (.next (bitFail kind (withPast s o p s.ustart))) :=
  alike_raiseError kind s.ustart s.cur rfl

/-- A completed command byte leads on to a data byte's start bit. -/
theorem alike_completeCommand (v : BitVec 8) :
    Alike s.out o (completeCommand v s) (completeCommand v (withPast s o p s.ustart)) :=
  alike_emits (p := p) _ ⟨rfl, rfl⟩ ⟨rfl, rfl⟩
    (keepsUnits_of_packet nofun nofun)

theorem nextCar_st_ne (s : State) :
    (nextCar s).st ≠ St.hunt ∧ (nextCar s).st ≠ St.preamble := by
  rw [nextCar_st]
  split <;> decide

/-- A completed data byte leads on to a start bit, or faults on both sides. -/
theorem alike_completeData (v : BitVec 8) :
    Alike s.out o (completeData v s) (completeData v (withPast s o p s.ustart)) := by
  by_cases hcar : s.ctx.carIndex.toNat < 6
  · have hcar' : (withPast s o p s.ustart).ctx.carIndex.toNat < 6 := hcar
    rw [completeData, completeData, if_pos hcar, if_pos hcar']
    exact alike_emits (p := p) _ ⟨rfl, rfl⟩ ⟨rfl, rfl⟩
      (keepsUnits_of_packet (nextCar_st_ne _).1 (nextCar_st_ne _).2)
  · have hcar' : ¬ (withPast s o p s.ustart).ctx.carIndex.toNat < 6 := hcar
    rw [completeData, completeData, if_neg hcar, if_neg hcar']
    exact .fault _

/-- A completed checksum byte leads on to the packet's end. -/
theorem alike_completeChecksum (v : BitVec 8) :
    Alike s.out o (completeChecksum v s) (completeChecksum v (withPast s o p s.ustart)) :=
  alike_emits (p := p) _ ⟨rfl, rfl⟩ ⟨rfl, rfl⟩
    (keepsUnits_of_packet nofun nofun)

end Operations

/-- The instruction that a running state fetches goes on alike. -/
theorem alike_exec {s : State} {o : Output} {p q : Pos} {i : Instr} (h : KeepsUnits s p q)
    (hr : isRunning s.st = true) (hf : Fetches s i) :
    Alike s.out o (exec i s) (exec i (withPast s o p q)) := by
  cases i with
  | huntOne =>
    obtain ⟨-, -, hst, -⟩ := fetches_one hr hf rfl
    exact alike_whenReady h fun e _ => alike_countPreamble hst h e
  | huntZero | huntError =>
    obtain ⟨-, -, hst, -⟩ := fetches_one hr hf rfl
    exact alike_whenReady h fun e _ => alike_restartCount hst h e
  | preambleOne =>
    obtain ⟨-, -, hst, -⟩ := fetches_one hr hf rfl
    exact alike_whenReady h fun e _ => alike_silent rfl ⟨fun _ => h.pstart (.inl hst), h.ustart⟩
  | preambleZero =>
    obtain ⟨-, -, hst, -⟩ := fetches_one hr hf rfl
    obtain rfl := h.pstart (.inl hst)
    exact alike_whenReady h fun e _ => alike_emits _ ⟨rfl, rfl⟩ ⟨rfl, rfl⟩
      ⟨fun _ => rfl, h.ustart⟩
  | preambleGap | preambleError =>
    obtain ⟨-, -, hst, -⟩ := fetches_one hr hf rfl
    exact alike_whenReady h fun e _ => alike_raiseError _ _ e (h.pstart (.inl hst)).symm
  | packetStartZero | dataStartZero | checksumStartZero =>
    exact alike_startBitStep h fun t =>
      alike_emits (p := p) _ ⟨rfl, rfl⟩ ⟨rfl, rfl⟩ (keepsUnits_of_packet nofun nofun)
  | packetStartOne | packetStartBitError | packetStartFramingError | dataStartOne
  | dataStartBitError | dataStartFramingError | checksumStartOne | checksumStartBitError
  | checksumStartFramingError => exact alike_startBitStep h fun t => alike_bitFail _
  | commandByteZero | commandByteOne =>
    obtain ⟨-, -, -, hst, -⟩ := fetches_two hr hf rfl
    exact alike_takeBit (hst ▸ rfl) h fun v t _ => alike_completeCommand v
  | dataByteZero | dataByteOne =>
    obtain ⟨-, -, -, hst, -⟩ := fetches_two hr hf rfl
    exact alike_takeBit (hst ▸ rfl) h fun v t _ => alike_completeData v
  | checksumByteZero | checksumByteOne =>
    obtain ⟨-, -, -, hst, -⟩ := fetches_two hr hf rfl
    exact alike_takeBit (hst ▸ rfl) h fun v t _ => alike_completeChecksum v
  | commandByteBitError | commandByteFramingError | dataByteBitError | dataByteFramingError
  | checksumByteBitError | checksumByteFramingError =>
    obtain ⟨-, -, -, hst, -⟩ := fetches_two hr hf rfl
    exact alike_byteBitStep (hst ▸ rfl) h fun t _ => alike_bitFail _
  | packetEndZero | packetEndError =>
    exact alike_whenReady h fun e _ => alike_raiseError _ _ e rfl
  | packetEndOne =>
    exact alike_whenReady h fun e _ => alike_emits _ ⟨rfl, rfl⟩ ⟨rfl, rfl⟩
      ⟨fun _ => rfl, fun hb => absurd rfl hb⟩
  | packetEndGap =>
    exact alike_whenReady h fun e _ => alike_emits _ ⟨rfl, rfl⟩ ⟨rfl, rfl⟩
      ⟨fun hc => by simp [CountsPreamble] at hc, h.ustart⟩
  | gapSkipGap =>
    exact alike_whenReady h fun e _ => alike_silent rfl ⟨h.pstart, h.ustart⟩
  | gapSkipZero | gapSkipOne | gapSkipError =>
    exact alike_whenReady h fun e _ => alike_silent rfl (keepsUnits_of_clean rfl rfl rfl)
  | halted => exact alike_silent rfl h

/-- Whether a transition is noted depends on the states alone and on how many frames were appended
(60_exceptions.md R248). -/
theorem AlikeNext.noteTransition {s t v : State} {o : Output} {p q : Pos}
    (h : AlikeNext s.out o t v) :
    AlikeNext s.out o (noteTransition s t) (noteTransition (withPast s o p q) v) := by
  obtain ⟨hsame, fs, hs, ho⟩ := h
  obtain ⟨o', p', q', rfl, hkeeps⟩ := exists_withPast hsame
  have hcommits : o'.commits = o.commits + fs.length := ho.commits
  have hcount (n : Nat) : (n + fs.length != n) = (fs.length != 0) := by
    rw [Bool.eq_iff_iff]; simp
  have hnote : Machine.noteTransition (withPast s o p q) (withPast t o' p' q') =
      withPast (Machine.noteTransition s t) o' p' q' := by
    simp only [Machine.noteTransition, withPast, hs.commits, hcommits, hcount]
  have hkeeps' : KeepsUnits (Machine.noteTransition s t) p' q' := ⟨hkeeps.pstart, hkeeps.ustart⟩
  rw [hnote]
  exact ⟨sameDecoding_withPast hkeeps' o', fs, ⟨hs.frames, hs.commits⟩, ho⟩

theorem Alike.mapNext {a b : Output} {x y : StepResult} {f g : State → State} (h : Alike a b x y)
    (hfg : ∀ t v, AlikeNext a b t v → AlikeNext a b (f t) (g v)) :
    Alike a b (mapNext f x) (mapNext g y) := by
  cases h with
  | next h => exact .next (hfg _ _ h)
  | fault r => exact .fault r
  | refused r => exact .refused r

/-- The instruction of a key runs alike where its meaning does. -/
theorem alike_runKey {s : State} {o : Output} {p q : Pos} {key : BitVec 6}
    (h : ∀ i, decodeKey key = .ok i → Alike s.out o (exec i s) (exec i (withPast s o p q))) :
    Alike s.out o (runKey s key) (runKey (withPast s o p q) key) := by
  cases hd : decodeKey key with
  | ok i =>
    rw [runKey_of_decodeKey hd, runKey_of_decodeKey hd]
    exact (h i hd).mapNext fun _ _ ht => ht.noteTransition
  | error r =>
    rw [runKey, runKey, hd]
    exact .fault _

theorem alike_ite {a b : Output} {c : Prop} [Decidable c] {x y x' y' : StepResult}
    (hpos : c → Alike a b x x') (hneg : ¬ c → Alike a b y y') :
    Alike a b (if c then x else y) (if c then x' else y') := by
  split
  · exact hpos ‹_›
  · exact hneg ‹_›

theorem KeepsUnits.nextChoice {s : State} {p q : Pos} (h : KeepsUnits s p q) :
    KeepsUnits (nextChoice s) p q := ⟨h.pstart, h.ustart⟩

/-- No test of a step reads the past. -/
theorem alike_step {s : State} {o : Output} {p q : Pos} (h : KeepsUnits s p q) :
    Alike s.out o (step s) (step (withPast s o p q)) := by
  unfold step
  refine alike_ite (fun _ => alike_silent rfl h) fun _ => ?_
  refine alike_ite (fun _ => .fault _) fun _ => ?_
  refine alike_ite (fun hst => alike_runKey fun i hi => ?_) fun _ => ?_
  · have hcode : (keyOf s.st 0).extractLsb' 2 4 = St.halted := (keyOf_st s.st 0).trans hst
    cases hi.symm.trans (decodeKey_of_haltedCode hcode)
    exact alike_silent rfl h
  refine alike_ite (fun _ => .fault _) fun hr => ?_
  refine alike_ite (fun _ => .refused _) fun _ => ?_
  refine alike_ite (fun _ => alike_silent rfl h) fun _ => ?_
  refine alike_ite (fun _ => alike_halt (s := nextChoice s) _ h.nextChoice) fun _ => ?_
  have hr : isRunning (nextChoice s).st = true := by simpa using hr
  refine alike_whenReady (s := nextChoice s) h.nextChoice fun key hk => ?_
  exact alike_runKey fun i hi => alike_exec h.nextChoice hr ⟨key, hk, hi⟩

/-- Settles O57: of two states that decode alike the one is the other with another past, and no step reads
more of the past than the units in progress. -/
theorem resynchronisationForgetsThePast : Obligations.ResynchronisationForgetsThePast := by
  intro s u h
  obtain ⟨o, p, q, rfl, hkeeps⟩ := exists_withPast h
  have hstep := alike_step (o := o) hkeeps
  generalize step s = x at hstep ⊢
  generalize step (withPast s o p q) = y at hstep ⊢
  cases hstep with
  | next h =>
    obtain ⟨hsame, fs, hs, ho⟩ := h
    exact ⟨hsame, fs, hs.frames, ho.frames⟩
  | fault r | refused r => rfl

/-! ## A command byte from its sixteen edges -/

/-- The positions `p` are the next sixteen edges of `s`, and their half-bits are the bits of `v`, most
significant first (20_memory.md R67). -/
structure SendsByte (s : State) (v : BitVec 8) (p : Nat → Pos) : Prop where
  start : p 0 = s.cur
  edges : ∀ n, n < 16 → s.src.edges[s.k + n]? = some (p (n + 1)) ∧ p n < p (n + 1)
  bits : ∀ j, j < 8 →
    samples (p (2 * j)) (p (2 * j + 2)) ≤ s.cfg.maxBit.toNat ∧
    classify s.cfg (samples (p (2 * j)) (p (2 * j + 1))) false =
      (if v.getLsbD (7 - j) then .one else .zero) ∧
    classify s.cfg (samples (p (2 * j + 1)) (p (2 * j + 2))) false =
      (if v.getLsbD (7 - j) then .one else .zero)

/-- `s` after `j` bits of the byte `v`, which began at its cursor. -/
def bitsIn (s : State) (v : BitVec 8) (p : Nat → Pos) (j : Nat) : State :=
  { s with
    cur := p (2 * j), k := s.k + 2 * j
    ustart := if j = 0 then s.ustart else s.cur
    ctx.shreg := v >>> (8 - j), ctx.bidx := BitVec.ofNat 4 j }

theorem bidx_bitsIn (s : State) (v : BitVec 8) (p : Nat → Pos) {j : Nat} (hj : j < 8) :
    (bitsIn s v p j).ctx.bidx.toNat = j := by
  rw [bitsIn, BitVec.toNat_ofNat, Nat.mod_eq_of_lt (by omega)]

/-- Bit `7 - j` shifted in below the bits above it (41_bit_assembler.md R142). -/
theorem shreg_bitsIn (s : State) (v : BitVec 8) (p : Nat → Pos) {j : Nat} (hj : j < 8) :
    (bitsIn s v p j).ctx.shreg <<< 1 ||| (v.extractLsb' (7 - j) 1).setWidth 8 = v >>> (7 - j) := by
  rw [bitsIn, show 8 - j = 7 - j + 1 by omega]
  exact shiftLeft_or_extractLsb' v (7 - j)

theorem extractLsb'_one (v : BitVec 8) (i : Nat) :
    v.extractLsb' i 1 = BitVec.ofBool (v.getLsbD i) := by
  ext k hk
  obtain rfl : k = 0 := by omega
  simp

/-- Two half-bits that agree within the span make their bit (41_bit_assembler.md R140). -/
theorem assembleBit_of_halves {s : State} {e f : Pos} (b : Bool)
    (hspan : samples s.cur f ≤ s.cfg.maxBit.toNat)
    (h1 : classify s.cfg (samples s.cur e) false = if b then .one else .zero)
    (h2 : classify s.cfg (samples e f) false = if b then .one else .zero) :
    (assembleBit e f s).1 = if b then .one else .zero := by
  obtain ⟨-, -, -, hone, hzero⟩ := assembleBitConsumesTwo e f s
  have hspan' := Nat.not_lt.2 hspan
  cases b with
  | true => exact hone.2 ⟨by simp [h1, h2, hspan'], h1, h2⟩
  | false => exact hzero.2 ⟨by simp [h1, h2, hspan'], h1, h2⟩

namespace SendsByte

variable {s : State} {v : BitVec 8} {p : Nat → Pos} {j : Nat}

theorem nextEdges (h : SendsByte s v p) (hj : j < 8) :
    NextEdges (bitsIn s v p j) (p (2 * j + 1)) (p (2 * j + 2)) := by
  obtain ⟨he, hlt⟩ := h.edges (2 * j) (by omega)
  obtain ⟨hf, hlt'⟩ := h.edges (2 * j + 1) (by omega)
  exact ⟨he, hf, hlt, hlt'⟩

theorem ordinary (ho : Ordinary s) (hj : j < 8) : Ordinary (bitsIn s v p j) := by
  obtain ⟨hheld, hcancel, hv, -, hcar⟩ := ho
  exact ⟨hheld, hcancel, hv, (bidx_bitsIn s v p hj).trans_lt hj, hcar⟩

/-- Bit `j` runs the instruction of COMMAND_BYTE that takes it. -/
theorem step_eq (h : SendsByte s v p) (ho : Ordinary s) (hst : s.st = St.commandByte) (hj : j < 8) :
    ∃ i, (i, (v.extractLsb' (7 - j) 1).setWidth 8) ∈
        [(Instr.commandByteZero, 0), (Instr.commandByteOne, 1)] ∧
      step (bitsIn s v p j) = exec i (bitsIn s v p j) := by
  obtain ⟨hspan, h1, h2⟩ := h.bits j hj
  have hbit := assembleBit_of_halves (s := bitsIn s v p j) _ hspan h1 h2
  have hrun {i : Instr} {y : LogicalBit} :=
    step_of_bit (i := i) (y := y) (ordinary ho hj) hst rfl (h.nextEdges hj)
  rw [extractLsb'_one]
  cases hb : v.getLsbD (7 - j) with
  | true => exact ⟨.commandByteOne, by simp, hrun (by rw [hbit, hb]) rfl⟩
  | false => exact ⟨.commandByteZero, by simp, hrun (by rw [hbit, hb]) rfl⟩

/-- The byte starts at the cursor of its first bit. -/
theorem ustart_eq (h : SendsByte s v p) (hj : j < 8) :
    (if (bitsIn s v p j).ctx.bidx = 0 then p (2 * j) else (bitsIn s v p j).ustart) = s.cur := by
  have hbidx : (bitsIn s v p j).ctx.bidx = 0 ↔ j = 0 := by
    rw [← BitVec.toNat_inj, bidx_bitsIn s v p hj]; rfl
  split
  next hz => rw [hbidx.1 hz]; exact h.start
  next hz => exact if_neg fun hj0 => hz (hbidx.2 hj0)

/-- A bit before the last goes into the shift register. -/
theorem step_mid (h : SendsByte s v p) (ho : Ordinary s) (hst : s.st = St.commandByte) (hj : j < 7) :
    step (bitsIn s v p j) = .next (bitsIn s v p (j + 1)) := by
  have hj8 : j < 8 := Nat.lt_succ_of_lt hj
  obtain ⟨i, hi, hstep⟩ := h.step_eq ho hst hj8
  have hmid : (bitsIn s v p j).ctx.bidx.toNat < 7 := (bidx_bitsIn s v p hj8).trans_lt hj
  have hcount : BitVec.ofNat 4 j + 1 = BitVec.ofNat 4 (j + 1) := (BitVec.ofNat_add j 1).symm
  have hleft : 8 - (j + 1) = 7 - j := by omega
  rw [hstep, commandInstrs.exec_mid hi hmid (h.nextEdges hj8), shreg_bitsIn s v p hj8]
  have hstart := h.ustart_eq hj8
  simp only [bitsIn] at hstart ⊢
  rw [hstart, hcount, hleft]
  rfl

/-- The last bits of the byte are a step each; the eighth bit completes it. -/
theorem run_bitsIn (h : SendsByte s v p) (ho : Ordinary s) (hst : s.st = St.commandByte) {t : State}
    (hlast : step (bitsIn s v p 7) = .next t) (n : Nat) (hn : j + n = 7) :
    Host.Core.run Sys2Proof.core (n + 1) (bitsIn s v p j) = .next t := by
  induction n generalizing j with
  | zero =>
    obtain rfl : j = 7 := hn
    rw [run_succ hlast]
    rfl
  | succ n ih => rw [run_succ (h.step_mid ho hst (by omega)), ih (by omega)]

theorem bitsIn_zero (h : SendsByte s v p) (hbidx : s.ctx.bidx = 0) (hshreg : s.ctx.shreg = 0) :
    bitsIn s v p 0 = s := by
  have hcur : p (2 * 0) = s.cur := h.start
  have hnone : v >>> (8 - 0) = s.ctx.shreg := (BitVec.ushiftRight_eq_zero le_rfl).trans hshreg.symm
  have hcount : BitVec.ofNat 4 0 = s.ctx.bidx := hbidx.symm
  rw [bitsIn, hcur, hnone, hcount]
  rfl

end SendsByte

/-- Settles O58: seven bits go into the shift register and the eighth completes the byte. -/
theorem commandByteReceivedMsbFirst : Obligations.CommandByteReceivedMsbFirst := by
  intro s v p ho hst hbidx hshreg hstart hedges hbits m
  have h : SendsByte s v p := ⟨hstart, hedges, hbits⟩
  have hrun {t : State} (hlast : step (bitsIn s v p 7) = .next t) :
      Host.Core.run Sys2Proof.core 8 s = .next t := by
    have hbits := h.run_bitsIn ho hst hlast 7 (Nat.zero_add 7)
    rwa [h.bitsIn_zero hbidx hshreg] at hbits
  obtain ⟨i, hi, hstep⟩ := h.step_eq ho hst (by decide : 7 < 8)
  have hbyte := shreg_bitsIn s v p (by decide : 7 < 8)
  rw [Nat.sub_self, BitVec.ushiftRight_zero] at hbyte
  have hexec :=
    commandByteCompletes (bitsIn s v p 7) _ _ i _ hst hi rfl (h.nextEdges (by decide : 7 < 8))
  dsimp only at hexec
  refine hrun ?_
  dsimp only
  rw [hshreg, hbidx, hstep, hexec, hbyte, ← foldCommand_eq_ite]
  rfl

end Sys2Proof.Machine
end

-- Proofs of the family 43_checksum.md
section

/-! PROOFS. The statements of 43_checksum.md. The accumulator is the XOR of what was folded into it; the
closed form starts it at its value after the command, and a mask in one byte moves out to the end. -/

namespace Sys2Proof.Machine

/-- Folding data bytes into a state XORs them, in order, onto its accumulator (43_checksum.md R223). -/
theorem foldl_cksFoldData_cks (s : State) (ds : List (BitVec 8)) :
    (ds.foldl (fun t d => cksFoldData d t) s).ctx.cks = ds.foldl (· ^^^ ·) s.ctx.cks :=
  (List.foldl_hom (fun t : State => t.ctx.cks) fun _ _ => rfl).symm

/-- The initial value of a XOR over bytes can be taken out in front. -/
theorem foldl_xor_eq_xor_foldl_zero (a : BitVec 8) (ds : List (BitVec 8)) :
    ds.foldl (· ^^^ ·) a = a ^^^ ds.foldl (· ^^^ ·) 0 := by
  calc ds.foldl (· ^^^ ·) a
    _ = ds.foldl (· ^^^ ·) (a ^^^ 0) := by rw [BitVec.ofNat_eq_ofNat, BitVec.xor_zero]
    _ = a ^^^ ds.foldl (· ^^^ ·) 0 := List.foldl_assoc

/-- A mask on one byte of a XOR is a mask on the result, wherever the byte stands. -/
theorem foldl_xor_masked (a d m : BitVec 8) (before after : List (BitVec 8)) :
    (before ++ (d ^^^ m) :: after).foldl (· ^^^ ·) a =
      (before ++ d :: after).foldl (· ^^^ ·) a ^^^ m := by
  rw [List.foldl_append, List.foldl_append, List.foldl_cons, List.foldl_cons,
    foldl_xor_eq_xor_foldl_zero, foldl_xor_eq_xor_foldl_zero (_ ^^^ d)]
  ac_rfl

/-! CksCheck (43_checksum.md R224): no flag on equal bytes, CHECKSUM_ERROR on different ones. -/

theorem cksCheck_self (r : BitVec 8) : cksCheck r r = 0 := if_pos rfl

theorem cksCheck_of_ne {r cks : BitVec 8} (h : r ≠ cks) : cksCheck r cks = flagChecksumError :=
  if_neg h

/-- A non-zero mask changes a byte. -/
theorem ne_xor_mask (r : BitVec 8) {m : BitVec 8} (hm : m ≠ 0) : r ≠ r ^^^ m := fun h =>
  hm ((BitVec.xor_right_inj r).1 (h.symm.trans BitVec.xor_zero.symm))

/-- Settles O13: the bytes are XORed onto the value after the command, which the formula gives. -/
theorem checksumClosedForm : Obligations.ChecksumClosedForm := by
  intro s c ds
  rw [foldl_cksFoldData_cks, foldl_xor_eq_xor_foldl_zero, cksFoldCommand_cks, cksInit_cks,
    cksInit_cfg]
  cases s.cfg.cksumFormula with
  | xorData => exact BitVec.zero_xor
  | ffCmdData => rfl

/-- Settles O14: the mask moves through the XOR to the computed value, which it makes differ. -/
theorem flippedBitIsFlagged : Obligations.FlippedBitIsFlagged := by
  intro s c d m before after hm computed sent got
  have hgot : got = sent ^^^ m := by
    simp only [got, sent, computed, foldl_cksFoldData_cks, foldl_xor_masked]
  refine ⟨hgot, cksCheck_self sent, ?_⟩
  rw [hgot]
  exact cksCheck_of_ne (ne_xor_mask sent hm)

end Sys2Proof.Machine
end

-- Proofs of the family 60_exceptions.md
section

/-! PROOFS. The statements of 60_exceptions.md. What it takes for a cancellation to be taken, and the state
it halts in, are said once; a step that emits or leaves its state ends outside a byte, so the halt it
forces is taken at the very next step. -/

namespace Sys2Proof.Machine

/-! ## Where a cancellation is taken -/

/-- Cancel is raised outside a byte and the halt is forced or chosen (60_exceptions.md R248). -/
theorem cancelTaken_iff (s : State) :
    cancelTaken s = true ↔
      s.cancel = true ∧ s.ctx.bidx = 0 ∧
        (s.cancelDue = true ∨ Config.cancelNow s.choice = true) := by
  simp only [cancelTaken, Bool.and_eq_true, Bool.or_eq_true, beq_iff_eq, and_assoc]

/-- The halt with CANCELLED uses up the free choice it asked (60_exceptions.md R250; log entry 4). -/
theorem halt_cancelled_nextChoice {s : State} (h : s.cancel = true) :
    halt .cancelled (nextChoice s) =
      { s with st := St.halted, hcause := .cancelled, choice := s.choice + 1 } := by
  rw [nextChoice, if_pos h, halt]

/-- Settles O43: a cancellation forced or chosen at a boundary outside a byte is taken. -/
theorem cancellationHalts : Obligations.CancellationHalts := by
  intro s hheld hst hv hcar hcancel hb hwhen
  have hb8 : s.ctx.bidx.toNat < 8 := by rw [hb]; decide
  have htaken : cancelTaken s = true := (cancelTaken_iff s).2 ⟨hcancel, hb, hwhen⟩
  rw [step_of_cancelTaken hheld (decide_eq_true hst) hv hb8 hcar htaken,
    halt_cancelled_nextChoice hcancel]

/-- Settles O44: of all a step can do only the cancellation writes CANCELLED, the two other halts write
their own cause and no instruction writes any. -/
theorem cancellationOnlyOutsideAByte : Obligations.CancellationOnlyOutsideAByte := by
  intro s t h hs ht
  rcases step_next h with ⟨-, rfl⟩ | ⟨-, -, hr, -, -, hcase⟩
  · exact absurd ht hs
  rcases hcase with ⟨hc, rfl⟩ | ⟨-, ⟨-, rfl⟩ | ⟨-, rfl⟩ | ⟨-, rfl⟩ | ⟨i, u, hf, hu, rfl⟩⟩
  · obtain ⟨hcancel, hb, -⟩ := (cancelTaken_iff s).1 hc
    exact ⟨hcancel, hb, hr, halt_cancelled_nextChoice hcancel⟩
  · exact nomatch ht
  · exact absurd ht hs
  · exact nomatch ht
  · have hkept := (exec_runs (s := nextChoice s) hr hf hu).keepsInputs.hcause
    exact absurd (hkept.symm.trans ht) hs

/-! ## The halt that a transition forces -/

/-- Only a bit that does not complete its byte leaves a byte in progress, and it stays in its state
(41_bit_assembler.md R143). -/
theorem Runs.st_of_inByte {s u : State} (h : Runs s u) (hl : Legal s) (hr : isRunning s.st = true)
    (hb : u.ctx.bidx ≠ 0) : u.st = s.st := by
  cases h with
  | byteMid e f => exact afterByteBit_st e f s
  | huntMiss | preambleOne | skipGap => rfl
  | huntOne e hst | preambleZero e hst | endGap e hst =>
    exact absurd (bidx_eq_zero_of_legal hl hr (by rw [hst]; rfl)) hb
  | preambleFail | packetStart | dataStart | checksumStart | startFail | byteFail | endOne
  | endFail | skipEnd => exact absurd rfl hb
  | commandDone e f b hst he h8 u hu =>
    obtain rfl := completeCommand_next hu
    exact absurd rfl hb
  | dataDone e f b hst he h8 u hu =>
    obtain ⟨-, x, rfl, -⟩ := completeData_next hu
    exact absurd rfl hb
  | checksumDone e f b hst he h8 u hu =>
    obtain rfl := completeChecksum_next hu
    exact absurd rfl hb

/-- A frame is committed in the step that emits it (20_memory.md R70). -/
theorem Emits.commits_ne {s u : State} (h : Emits s u) (hne : u.out.frames ≠ s.out.frames) :
    u.out.commits ≠ s.out.commits := by
  cases h with
  | none ho => exact absurd (congrArg Output.frames ho) hne
  | one f ho => rw [ho]; exact Nat.succ_ne_self _

/-- The block emitted a frame or changed `st` on its way from `s` to `t`: the transition of
60_exceptions.md R248. -/
abbrev MadeTransition (s t : State) : Prop := t.out.frames ≠ s.out.frames ∨ t.st ≠ s.st

/-- An instruction that makes a transition completes or abandons the byte it is in. -/
theorem Runs.bidx_of_madeTransition {s u : State} (h : Runs s u) (hl : Legal s)
    (hr : isRunning s.st = true) (hm : MadeTransition s u) : u.ctx.bidx = 0 := by
  by_contra hb
  rcases hm with hframes | hst
  · obtain ⟨hout, -⟩ := h.ustart_of_inByte hl hr hb
    exact hframes (congrArg Output.frames hout)
  · exact hst (h.st_of_inByte hl hr hb)

/-- The model notes every transition made while cancel is raised (log entry 5). -/
theorem Runs.noteTransition_cancelDue {s u : State} (h : Runs s u) (hcancel : s.cancel = true)
    (hm : MadeTransition s u) : (noteTransition s u).cancelDue = true := by
  have hnoted : u.out.commits ≠ s.out.commits ∨ u.st ≠ s.st := hm.imp_left h.emits.commits_ne
  simp only [noteTransition, hcancel, Bool.true_and, Bool.or_eq_true, bne_iff_ne]
  exact .inr hnoted

/-- A transition from `s` to `t`, if one was made, is a halt or ends outside a byte with the halt forced. -/
abbrev ForcesHalt (s t : State) : Prop :=
  MadeTransition s t → t.st = St.halted ∨ (t.ctx.bidx = 0 ∧ t.cancelDue = true)

/-- Every step taken while cancel is raised forces the halt by the transition it makes
(60_exceptions.md R248). -/
theorem step_forcesHalt {s t : State} (hl : Legal s) (hcancel : s.cancel = true)
    (h : step s = .next t) : ForcesHalt s t := by
  have hln : Legal (nextChoice s) := hl
  have hstays : ¬ MadeTransition s s := not_or.2 ⟨not_not_intro rfl, not_not_intro rfl⟩
  refine step_keeps h (fun hm => absurd hm hstays) (fun hm => absurd hm hstays)
    (fun _ _ _ => .inl rfl) fun u hr hu hm => ?_
  exact .inr ⟨hu.bidx_of_madeTransition hln hr hm, hu.noteTransition_cancelDue hcancel hm⟩

/-- Settles O45: the step forces the halt, and the state it leaves is legal, so the halt is taken there. -/
theorem cancellationStopsAfterATransition : Obligations.CancellationStopsAfterATransition := by
  intro s t hl hheld hcancel h hm
  have hlt : Legal t := stepKeepsLegal s t hl h
  have ⟨hst, hv, _⟩ := hlt
  obtain ⟨-, -, hcancelt, hheldt, -⟩ := step_keepsHostSide h
  rcases step_forcesHalt hl hcancel h hm with hhalted | ⟨hb, hdue⟩
  · exact .inl hhalted
  rcases hst with hr | hhalted
  · exact .inr (cancellationHalts t (hheldt.trans hheld) (of_decide_eq_true hr) hv
      (carIndex_ne_seven_of_legal hlt) (hcancelt.trans hcancel) hb (.inl hdue))
  · exact .inl hhalted

/-! ## No signal stops the block -/

/-- Settles O47: a legal state answers a next state on any signal, and increasing edges keep it from
recording an edge fault; the step leaves the edges as they are. -/
theorem legalStatesNeverStop : Obligations.LegalStatesNeverStop := by
  intro s hl hsafe hc hinc
  obtain ⟨t, ht⟩ := exists_step_next hl hsafe
  obtain ⟨hcfg, hsrc, -⟩ := step_keepsHostSide ht
  exact ⟨t, ht, step_keeps_safe hsafe hc hinc ht, by rwa [EdgesIncrease, hcfg, hsrc]⟩

end Sys2Proof.Machine
end


-- Proofs of the family 70_reset_and_hazards.md
section

/-! PROOFS. The statements of 70_reset_and_hazards.md. The registers a release resets take the values of
the reset state; what the host owns is kept. A configuration write is decided by one test. -/

namespace Sys2Proof.Machine

/-! ## Releasing reset -/

/-- Settles O6, register by register with the rules of `hostReleaseReset`: the run's registers have their
reset values and the block is in HUNT at `CFG_START`; the configuration, the Edge Source and the counter of
free choices are kept. -/
theorem releaseResetStartsHunt : Obligations.ReleaseResetStartsHunt := fun s =>
  ⟨hostReleaseReset_st s, hostReleaseReset_cur s, hostReleaseReset_k s, hostReleaseReset_pcnt s,
    hostReleaseReset_pstart s, hostReleaseReset_ustart s, hostReleaseReset_ctx s,
    hostReleaseReset_hcause s, hostReleaseReset_out s, hostReleaseReset_cfg s,
    hostReleaseReset_src s, hostReleaseReset_held s, hostReleaseReset_cancel s,
    hostReleaseReset_choice s⟩

/-! ## Writing the configuration -/

/-- Settles O8: the two clauses are the two sides of the one test `hostWriteCfg` makes, whether the block
is held or halted. -/
theorem configurationWriteOnlyWhenStopped : Obligations.ConfigurationWriteOnlyWhenStopped := by
  intro n v s
  constructor
  · intro hstopped
    rw [hostWriteCfg, if_pos hstopped]
  · intro hheld hst
    have hruns : ¬ (s.held = true ∨ s.st = St.halted) :=
      not_or.2 ⟨Bool.eq_false_iff.1 hheld, hst⟩
    rw [hostWriteCfg, if_neg hruns]

end Sys2Proof.Machine
end
